-- ==== Sys2Proof/Word.lean ====
section
/-!
DEFINITION. The plain data types that the manual treats as bits, and the fixed-size table of like records.
-/

namespace Sys2Proof

/-- One byte as it is carried on either link (R188). -/
abbrev Byte := BitVec 8

/-- A 32-bit field the manual copies or wraps without saturating: a token, a round number, a prompt period number. -/
abbrev Word32 := BitVec 32

/-- Device time and every deadline: a wrapping 32-bit count of microseconds (R68, R69). -/
abbrev Time := BitVec 32

/-- A station address: six bytes carried unchanged (R1, R189). -/
abbrev Address := BitVec 48

/-- A fixed number of like records, numbered from 0 (station records, lanes, cohort records). -/
structure Table (α : Type) (n : Nat) where
  rows : List α
  size : rows.length = n
  deriving DecidableEq, Repr

/-- `n` equal records. -/
def Table.replicate {α : Type} (n : Nat) (x : α) : Table α n :=
  ⟨List.replicate n x, List.length_replicate⟩

/-- Record `i`, or `d` where no record has that number. -/
def Table.get {α : Type} {n : Nat} (t : Table α n) (d : α) (i : Nat) : α :=
  t.rows.getD i d

/-- Replace record `i` by its image under `f`; no effect where no record has that number. -/
def Table.modify {α : Type} {n : Nat} (t : Table α n) (i : Nat) (f : α → α) : Table α n :=
  ⟨t.rows.modify i f, by simp [t.size]⟩

/-- Replace every record by its image under `f`, which is also given the record's number. -/
def Table.mapIdx {α : Type} {n : Nat} (t : Table α n) (f : Nat → α → α) : Table α n :=
  ⟨t.rows.zipIdx.map (fun p => f p.2 p.1), by simp [t.size]⟩

end Sys2Proof
end

