-- ==== Sys2Proof/Syntax.lean ====
section
/-!
DEFINITION. The commands: one constructor for each row of spec/opcode_table.json. A command that takes a record
from one of the part's own queues (a dispatched host command, a delivered MAC record) has no operand, because its
fields are the fields of that record; a command that comes in over a pin or a link carries what arrives there.
-/

namespace Sys2Proof

inductive Instr where
  /-- WRITE_TRANSACTION (R174): CL_SEL_N rises on a WRITE after `bytes` complete bytes following the direction byte. -/
  | writeTransaction (bytes : List Byte)
  /-- READ_TRANSACTION (R175): CL_SEL_N rises on a READ after `clocked` complete bytes following the direction byte. -/
  | readTransaction (clocked : Nat)
  /-- IDLE_TRANSACTION (R173): CL_SEL_N rises on a transaction with any other direction byte, after `clocked` further bytes. -/
  | idleTransaction (clocked : Nat)
  /-- UNKNOWN_TYPE (R177): dispatch of a host record whose type names no command. -/
  | unknownType
  /-- CONFIGURE (R160, R161). -/
  | configure
  /-- START (R163). -/
  | start
  /-- STOP (R164). -/
  | stop
  /-- ABORT (R166). -/
  | abort
  /-- RESET, the soft reset (R167). -/
  | reset
  /-- QUIET (R151). -/
  | quiet
  /-- RESUME (R151). -/
  | resume
  /-- STATUS (R172). -/
  | status
  /-- ADMIT (R4, R5). -/
  | admitStation
  /-- RELEASE (R7). -/
  | release
  /-- SET_WEIGHT (R9). -/
  | setWeight
  /-- HOLD (R10). -/
  | hold
  /-- ENQUEUE (R27, R28). -/
  | enqueue
  /-- FLUSH (R38). -/
  | flush
  /-- SET_COHORT (R86, R87). -/
  | setCohort
  /-- QUERY (R180). -/
  | query
  /-- TOKEN_RETURN (R42). -/
  | tokenReturn
  /-- ALERT (R170). -/
  | alert
  /-- ATTN_PULSE (R179): the end of one ATTN pulse. -/
  | attnPulse
  /-- RECORD_START (R184, R190): a start-of-record symbol; `cut` holds the data bytes so far of a record it cuts short. -/
  | recordStart (cut : List Byte)
  /-- RECORD_END (R185): the record in progress has arrived whole, with the data bytes `framed`. -/
  | recordEnd (framed : List Byte)
  /-- TX_OUTCOME (R124): delivery of the head record of the radio inbound queue, as are the six rows below it. -/
  | txOutcome
  /-- MEDIUM_REPORT (R144). -/
  | mediumReport
  /-- MEDIUM_ALERT (R147). -/
  | mediumAlert
  /-- MEDIUM_CLEAR (R149). -/
  | mediumClear
  /-- DOZE (R12). -/
  | doze
  /-- WAKE (R13). -/
  | wake
  /-- POLL (R14). -/
  | poll
  /-- RADIO_RECORD_SENT (R182): the last byte of the record being sent to the MAC has gone. -/
  | radioRecordSent
  /-- CANCEL_ALL (R183): the pending CANCEL_ALL takes a free radio outbound slot. -/
  | cancelAll
  /-- LINK_NOTE_HANDED (R6, R183). -/
  | linkNoteHanded
  /-- TX_ORDER_PLACED (R123, R183). -/
  | txOrderPlaced
  /-- FRAME_EXPIRY (R36). -/
  | frameExpiry
  /-- ORDER_TIMEOUT (R131). -/
  | orderTimeout
  /-- BLANKING_EXPIRY (R145). -/
  | blankingExpiry
  /-- ROUND_BOUNDARY (R72). -/
  | roundBoundary
  /-- PROMPT_BOUNDARY (R76). -/
  | promptBoundary
  /-- ORDER_BUILD (R122). -/
  | orderBuild
  /-- PIN_RESET (R168): RESET_N is asserted. -/
  | pinReset
  /-- RESET_N_RELEASE (R187): RESET_N is released. -/
  | resetNRelease
  /-- DIRECTION_BYTE (R173, R174): the first complete byte of a transaction is taken. -/
  | directionByte (b : Byte)
  /-- RADIO_RECORD_BEGIN (R182): the RLI, ready to begin the head record, samples MAC_RDY. -/
  | radioRecordBegin (macRdy : Bool)
  deriving DecidableEq, Repr

end Sys2Proof
end

