-- ==== Sys2Proof/Config.lean ====
section
/-!
DEFINITION. What the part fixes once and for all: the capacities of 00_scope.md, the ceilings of the
arithmetic, the wire constants of R190 and the record type codes of R191. No free value is needed: the manual
states every result, and an order it leaves open between two events is the order of the pending queue.
-/

namespace Sys2Proof.Config

/-- Station records 0..511 (R1). -/
abbrev stationCount : Nat := 512
/-- Cohort records 0..31 (R84). -/
abbrev cohortCount : Nat := 32
/-- Frame entries (R23). -/
abbrev frameEntries : Nat := 4096
/-- Frames in one ENQUEUE (R27). -/
abbrev enqueueFrames : Nat := 16
/-- Entries carried by one TOKEN_RETURN (R42). -/
abbrev tokensPerReturn : Nat := 32
/-- Longest frame, in bytes (R27). -/
abbrev maxFrameLength : Nat := 12000
/-- Longest lifetime, in milliseconds (R27). -/
abbrev maxLifetimeMs : Nat := 4095
/-- Control inbound queue, in records (R176). -/
abbrev controlInbound : Nat := 8
/-- Control outbound queue, in records (R178). -/
abbrev controlOutbound : Nat := 16
/-- Radio inbound queue, in places (R184). -/
abbrev radioInbound : Nat := 16
/-- Radio outbound queue, in records (R182). -/
abbrev radioOutbound : Nat := 8
/-- Quarantine list, in ids (R134). -/
abbrev quarantineIds : Nat := 8
/-- Longest record body, in bytes (R188). -/
abbrev maxBody : Nat := 512
/-- The ceiling of a 32-bit saturating counter (00_scope.md, Counters). -/
abbrev counterMax : Nat := 4294967295
/-- The ceiling of an order estimate (R49), of a cap (R16) and the depth of a budget (R62). -/
abbrev airtimeMax : Nat := 65535
/-- The ceiling of the ATTN pulse backlog (R179). -/
abbrev backlogMax : Nat := 255
/-- The ceiling of the consecutive-loss count (R133). -/
abbrev lossMax : Nat := 255
/-- Rate estimates lie within these rate units (R18). -/
abbrev minRate : Nat := 2
abbrev maxRate : Nat := 2400
/-- The length of one ATTN pulse, active half and idle half together, in microseconds (R179). -/
abbrev pulseUs : Nat := 2

/-- Direction bytes, answers and filler of a Control Link transaction (R190). -/
abbrev directionWrite : Byte := 0xC3#8
abbrev directionRead : Byte := 0x3C#8
abbrev answerReady : Byte := 0xA1#8
abbrev answerNotReady : Byte := 0xA0#8
abbrev filler : Byte := 0xFF#8

/-- Type codes of records from the part to the host that answer no command (R191). -/
abbrev typeReject : Byte := 0xFF#8
abbrev typeTokenReturn : Byte := 0xE0#8
abbrev typeUsageReport : Byte := 0xE1#8
abbrev typeAlert : Byte := 0xE2#8
/-- Added to a command's type code to form its reply's (R191). -/
abbrev replyOffset : Byte := 0x80#8

/-- Type codes of records from the part to the MAC (R191). -/
abbrev typeBind : Byte := 0x50#8
abbrev typeUnbind : Byte := 0x51#8
abbrev typePollEmpty : Byte := 0x52#8
abbrev typeTxOrder : Byte := 0x53#8
abbrev typeCancelAll : Byte := 0x54#8

end Sys2Proof.Config
end

