-- ==== Sys2Proof/Machine/State.lean ====
section
/-!
DEFINITION. The state of the AS416, block by block as 00_scope.md names the blocks, with the reset values, the
reasons a step can stop (none of the manual's) and the queue of waiting commands. Plain data throughout.
-/

namespace Sys2Proof.Machine

/-! ## Enumerations (R191 gives their codes) -/

/-- R158. -/
inductive Mode where
  | halted | ready | running | quiet | draining
  deriving DecidableEq, Repr

/-- R1. -/
inductive StationState where
  | vacant | idle | backlogged | dozing | leaving
  deriving DecidableEq, Repr

/-- R25. -/
inductive Lane where
  | prompt | bulk | slack
  deriving DecidableEq, Repr

/-- The step of the selection run that chose an order (R106, R118). -/
inductive Kind where
  | group | poll | prompt | fair | spill
  deriving DecidableEq, Repr

/-- What became of a frame (R23). -/
inductive FrameResult where
  | delivered | failed | expired | flushed | released | aborted | lost
  deriving DecidableEq, Repr

/-- R148. -/
inductive AlertCause where
  | none | vacate | interference | switch | other
  deriving DecidableEq, Repr

/-- Whether an order's TX_ORDER has entered the radio outbound queue (R118). -/
inductive Sent where
  | waiting | placed
  deriving DecidableEq, Repr

/-- R177, R189. -/
inductive ReplyCode where
  | ok | badState | badRange | badLength | unknownType | full | notAdmitted
  deriving DecidableEq, Repr

/-- R179. -/
inductive AttnMode where
  | level | pulse
  deriving DecidableEq, Repr

/-- A pin level. -/
inductive Level where
  | low | high
  deriving DecidableEq, Repr

/-- The sixteen commands that the CLI dispatches (R176). -/
inductive Command where
  | configure | start | stop | abort | reset | quiet | resume | status
  | admitStation | release | setWeight | hold | enqueue | flush | setCohort | query
  deriving DecidableEq, Repr

/-! ## MOD: mode, quiet causes, configuration (chapter 9) -/

/-- The quiet-cause set (R151). -/
structure QuietCauses where
  medium : Bool
  link : Bool
  host : Bool
  deriving DecidableEq, Repr

/-- No cause present. -/
def QuietCauses.empty : QuietCauses := ⟨false, false, false⟩

/-- The configuration record's fields, with the ranges of R159. -/
structure Configuration where
  roundUs : Nat
  promptPeriodUs : Nat
  promptSync : Bool
  promptPm : Nat
  groupPm : Nat
  freeFloorPm : Nat
  freeInitialPm : Nat
  orderOverheadUs : Nat
  subframeUs : Nat
  orderMaxUs : Nat
  orderMaxFrames : Nat
  window : Nat
  orderTimeoutMs : Nat
  lossLimit : Nat
  requeueMax : Nat
  laneLimit : Nat
  debtLimitUs : Nat
  spill : Bool
  reportEvery : Nat
  blankMs : Nat
  groupRate : Nat
  defaultRate : Nat
  attnMode : AttnMode
  attnActive : Level
  deriving DecidableEq, Repr

/-- The default column of R159. -/
def Configuration.default : Configuration where
  roundUs := 50000
  promptPeriodUs := 10000
  promptSync := true
  promptPm := 150
  groupPm := 50
  freeFloorPm := 250
  freeInitialPm := 700
  orderOverheadUs := 80
  subframeUs := 4
  orderMaxUs := 4000
  orderMaxFrames := 16
  window := 2
  orderTimeoutMs := 20
  lossLimit := 3
  requeueMax := 2
  laneLimit := 64
  debtLimitUs := 20000
  spill := true
  reportEvery := 4
  blankMs := 500
  groupRate := 12
  defaultRate := 12
  attnMode := .level
  attnActive := .low

/-- Mode Control (R158, R151, R159, R169, R170). -/
structure Mod where
  mode : Mode
  causes : QuietCauses
  config : Configuration
  configValid : Bool
  pendingAlert : Bool
  alertsSent : Nat
  deriving DecidableEq, Repr

def Mod.pinReset : Mod where
  mode := .halted
  causes := .empty
  config := .default
  configValid := false
  pendingAlert := false
  alertsSent := 0

/-! ## STT: station records and link notes (chapter 1) -/

/-- One station record (R1). Its index is its place in the table. -/
structure Station where
  state : StationState
  address : Address
  weight : Nat
  stagedWeight : Option Nat
  held : Bool
  stagedHold : Option Bool
  rate : Nat
  balance : Int
  quantum : Nat
  cap : Nat
  cohort : Option Nat
  inFlight : Nat
  usedRound : Nat
  delivered : Nat
  failed : Nat
  deriving DecidableEq, Repr

/-- The cleared values of R1; `cohort` is derived from the index and is not cleared (R1, R88). -/
def Station.cleared (cohort : Option Nat) : Station where
  state := .vacant
  address := 0
  weight := 0
  stagedWeight := none
  held := false
  stagedHold := none
  rate := 2
  balance := 0
  quantum := 0
  cap := 0
  cohort := cohort
  inFlight := 0
  usedRound := 0
  delivered := 0
  failed := 0

/-- A note for the MAC (R6). -/
inductive LinkNote where
  | bind (index : Nat) (address : Address)
  | unbind (index : Nat)
  | pollEmpty (index : Nat)
  deriving DecidableEq, Repr

/-- The Station Table (R1, R6, R15). -/
structure Stt where
  stations : Table Station Config.stationCount
  linkNotes : List LinkNote
  radioIgnored : Nat
  deriving DecidableEq, Repr

def Stt.pinReset : Stt where
  stations := .replicate _ (.cleared none)
  linkNotes := []
  radioIgnored := 0

/-! ## FPL: frame entries, lanes, expiry list, return list (chapter 2) -/

/-- A frame entry that is not FREE (R23). An entry is in exactly one place, and that place (a lane, an order's
frame list, the return list) is its state. -/
structure Frame where
  token : Word32
  station : Nat
  lane : Lane
  length : Nat
  deadline : Option Time
  noAgg : Bool
  requeues : Nat
  sequence : Nat
  deriving DecidableEq, Repr

/-- A RETURNING entry and its result (R23, R41). -/
structure Returning where
  frame : Frame
  result : FrameResult
  deriving DecidableEq, Repr

/-- The three lane queues of one station, each from head to tail (R25). Station 0 uses `bulk` alone. -/
structure Lanes where
  prompt : List Frame
  bulk : List Frame
  slack : List Frame
  deriving DecidableEq, Repr

def Lanes.empty : Lanes := ⟨[], [], []⟩

/-- One entry of the expiry list: the deadline that orders it, the sequence that breaks ties and names the frame,
and the lane the frame is queued in (R35). -/
structure ExpiryRef where
  deadline : Time
  sequence : Nat
  station : Nat
  lane : Lane
  deriving DecidableEq, Repr

/-- The Frame Pool. `freeEntries` is the free list: an unordered collection of entries that nothing tells apart (R24). -/
structure Fpl where
  freeEntries : Nat
  lanes : Table Lanes Config.stationCount
  expiry : List ExpiryRef
  returnList : List Returning
  nextSequence : Nat
  framesAccepted : Nat
  framesRefused : Nat
  framesRequeued : Nat
  framesExpired : Nat
  tokenNotices : Nat
  deriving DecidableEq, Repr

def Fpl.pinReset : Fpl where
  freeEntries := Config.frameEntries
  lanes := .replicate _ .empty
  expiry := []
  returnList := []
  nextSequence := 0
  framesAccepted := 0
  framesRefused := 0
  framesRequeued := 0
  framesExpired := 0
  tokenNotices := 0

/-! ## RCK: device time, rounds, prompt periods (chapter 4) -/

/-- The figures RCK keeps from the boundary that began the round (R72). -/
structure RoundFigures where
  freePm : Nat
  usable : Nat
  activeLength : Nat
  weightSum : Nat
  quantaSum : Nat
  deriving DecidableEq, Repr

def RoundFigures.zero : RoundFigures := ⟨0, 0, 0, 0, 0⟩

/-- The Round Clock (the table of chapter 4; R68, R70, R76, R78, R79, R81). -/
structure Rck where
  deviceTime : Time
  timeRunning : Bool
  clocksRunning : Bool
  round : Word32
  lastRoundAt : Time
  nextRoundAt : Time
  promptPeriod : Word32
  nextPromptAt : Time
  figures : RoundFigures
  promptUsed : Nat
  postscaler : Nat
  skipped : Nat
  reportsSent : Nat
  reportsSkipped : Nat
  deriving DecidableEq, Repr

def Rck.pinReset : Rck where
  deviceTime := 0
  timeRunning := false
  clocksRunning := false
  round := 0
  lastRoundAt := 0
  nextRoundAt := 0
  promptPeriod := 0
  nextPromptAt := 0
  figures := .zero
  promptUsed := 0
  postscaler := 0
  skipped := 0
  reportsSent := 0
  reportsSkipped := 0

/-! ## COH: cohort records (chapter 5) -/

/-- One cohort record (R84). Its number is its place in the table. -/
structure Cohort where
  span : Nat
  capPm : Nat
  stagedSpan : Option Nat
  stagedCapPm : Option Nat
  allot : Nat
  budget : Int
  usedRound : Nat
  deriving DecidableEq, Repr

/-- The pin-reset column of R84. -/
def Cohort.pinReset : Cohort where
  span := 0
  capPm := 1000
  stagedSpan := none
  stagedCapPm := none
  allot := 0
  budget := 0
  usedRound := 0

structure Coh where
  cohorts : Table Cohort Config.cohortCount
  deriving DecidableEq, Repr

def Coh.pinReset : Coh := ⟨.replicate _ .pinReset⟩

/-! ## SEL: the selector (chapter 6) -/

/-- A choice handed to ORD and not yet built (R106). -/
structure Choice where
  station : Nat
  lane : Lane
  kind : Kind
  deriving DecidableEq, Repr

/-- The Selector. `active` is the ring read from the cursor's station along successors, so its head is the cursor
and the cursor is empty when the list is (R96). `choice` stands only between a choice and its build (R106). -/
structure Sel where
  active : List Nat
  prompt : List Nat
  poll : List Nat
  groupDue : Bool
  groupBudget : Int
  promptBudget : Int
  groupAllot : Nat
  promptAllot : Nat
  choice : Option Choice
  deriving DecidableEq, Repr

def Sel.pinReset : Sel where
  active := []
  prompt := []
  poll := []
  groupDue := false
  groupBudget := 0
  promptBudget := 0
  groupAllot := 0
  promptAllot := 0
  choice := none

/-! ## ORD: orders and quarantine (chapter 7) -/

/-- An order's id (R118). -/
abbrev OrderId := BitVec 8

/-- One order record (R118). A held TX_ORDER is the record of an order whose `sent` is WAITING (R123). -/
structure Order where
  id : OrderId
  station : Nat
  lane : Lane
  kind : Kind
  frames : List Frame
  est : Nat
  issueTime : Time
  deadline : Time
  cohort : Option Nat
  round : Word32
  promptPeriod : Word32
  sent : Sent
  deriving DecidableEq, Repr

/-- The counters of R141. -/
structure OrdCounters where
  ordersIssued : Nat
  ordersEmpty : Nat
  outcomesAccepted : Nat
  countMismatches : Nat
  retries : Nat
  timeouts : Nat
  ordersCancelled : Nat
  lateOutcomes : Nat
  unmatchedOutcomes : Nat
  quarantineEvictions : Nat
  deriving DecidableEq, Repr

def OrdCounters.zero : OrdCounters := ⟨0, 0, 0, 0, 0, 0, 0, 0, 0, 0⟩

/-- The Order Engine (R118, R119, R133, R134, R137, R141). -/
structure Ord where
  outstanding : List Order
  quarantine : List OrderId
  nextId : OrderId
  lossCount : Nat
  cancelPending : Bool
  counters : OrdCounters
  deriving DecidableEq, Repr

def Ord.pinReset : Ord where
  outstanding := []
  quarantine := []
  nextId := 0
  lossCount := 0
  cancelPending := false
  counters := .zero

/-! ## MGD: the medium guard (chapter 8) -/

/-- The capture record (R148). -/
structure Capture where
  time : Time
  round : Word32
  offset : Nat
  cause : AlertCause
  deriving DecidableEq, Repr

/-- The Medium Guard. `blanking` is the blanking timer: STOPPED, or RUNNING with its deadline (R145). -/
structure Mgd where
  freeNow : Nat
  blanking : Option Time
  capture : Capture
  mediumAlerts : Nat
  mediumReports : Nat
  reportsBlanked : Nat
  linkRaises : Nat
  mediumIgnored : Nat
  deriving DecidableEq, Repr

def Mgd.pinReset : Mgd where
  freeNow := 0
  blanking := none
  capture := ⟨0, 0, 0, .none⟩
  mediumAlerts := 0
  mediumReports := 0
  reportsBlanked := 0
  linkRaises := 0
  mediumIgnored := 0

/-! ## Records on the Control Link (chapter 11) -/

/-- A record from the host in the control inbound queue, as received (R174). -/
structure HostRecord where
  typ : Byte
  tag : Byte
  body : List Byte
  short : Bool
  deriving DecidableEq, Repr

/-- The body of a STATUS reply (R172, R192). -/
structure StatusBody where
  mode : Mode
  causes : QuietCauses
  configValid : Bool
  freeEntries : Nat
  returnLength : Nat
  activeLength : Nat
  outstandingCount : Nat
  round : Word32
  freeNow : Nat
  deriving DecidableEq, Repr

/-- One STATION entry: the record and the QUEUED counts of its lanes (R1, R192). -/
structure StationRow where
  index : Nat
  station : Station
  promptQueued : Nat
  bulkQueued : Nat
  slackQueued : Nat
  deriving DecidableEq, Repr

/-- One COHORT entry: the record and its decoded range (R93, R192). -/
structure CohortRow where
  number : Nat
  cohort : Cohort
  firstIndex : Nat
  lastIndex : Nat
  deriving DecidableEq, Repr

/-- The ACTIVE_LIST summary (R115). -/
structure ActiveSummary where
  cursor : Option Nat
  activeLength : Nat
  promptLength : Nat
  pollLength : Nat
  groupDue : Bool
  groupBudget : Int
  promptBudget : Int
  deriving DecidableEq, Repr

/-- One ACTIVE_LIST entry (R115). -/
structure ActiveRow where
  station : Nat
  onPrompt : Bool
  deriving DecidableEq, Repr

/-- The OUTSTANDING summary (R140). -/
structure OutstandingSummary where
  count : Nat
  window : Nat
  nextId : OrderId
  lossCount : Nat
  cancelPending : Bool
  deriving DecidableEq, Repr

/-- One OUTSTANDING entry (R140). -/
structure OutstandingRow where
  id : OrderId
  lane : Lane
  station : Nat
  kind : Kind
  frameCount : Nat
  est : Nat
  round : Word32
  promptPeriod : Word32
  cohort : Option Nat
  sent : Sent
  timeToDeadline : Word32
  deriving DecidableEq, Repr

/-- The table part of a QUERY reply: the summary, where the table has one, and the entries returned (R180, R192). -/
inductive QueryBody where
  | station (entries : List StationRow)
  | cohort (entries : List CohortRow)
  | counters (entries : List Nat)
  | activeList (summary : ActiveSummary) (entries : List ActiveRow)
  | outstanding (summary : OutstandingSummary) (entries : List OutstandingRow)
  | quarantine (count : Nat) (entries : List OrderId)
  deriving DecidableEq, Repr

/-- A reply's code and what follows it (R192). A reply whose code is not OK carries the code alone (R177). -/
inductive Reply where
  | code (c : ReplyCode)
  | enqueue (results : List ReplyCode)
  | flush (count : Nat)
  | status (body : StatusBody)
  | query (start : Nat) (body : QueryBody)
  deriving DecidableEq, Repr

/-- The fields of a USAGE_REPORT (R80). -/
structure UsageReport where
  round : Word32
  usable : Nat
  freePm : Nat
  groupUsed : Nat
  promptUsed : Nat
  activeLength : Nat
  weightSum : Nat
  quantaSum : Nat
  totalCharged : Nat
  skipped : Nat
  cohorts : List (Nat × Nat)
  deriving DecidableEq, Repr

/-- A record bound for the host (R178): a reply with its command's type code and tag, or a notice. -/
inductive OutRecord where
  | reply (typ : Byte) (tag : Byte) (r : Reply)
  | reject (tag : Byte)
  | tokenReturn (entries : List (Word32 × FrameResult))
  | usageReport (r : UsageReport)
  | alert (mode : Mode) (causes : QuietCauses) (capture : Capture)
  deriving DecidableEq, Repr

/-- A Control Link transaction whose direction byte has been taken (R173). `read` holds the record fixed for the
transaction, or none where the NONE marker is returned (R175). -/
inductive Transaction where
  | write (ready : Bool)
  | read (record : Option OutRecord)
  | idle
  deriving DecidableEq, Repr

/-- The Control Link Interface. `sdo` holds the bytes driven on CL_SDO in the transaction in progress, or in the last
one, be it one that the CLI took nothing from (R190, R173, R187). `pulse` is the device time at which the ATTN pulse
being driven began (R179). -/
structure Cli where
  inbound : List HostRecord
  outbound : List OutRecord
  transaction : Option Transaction
  sdo : List Byte
  backlog : Nat
  pulse : Option Time
  clShortRecords : Nat
  clBadDirection : Nat
  deriving DecidableEq, Repr

def Cli.pinReset : Cli where
  inbound := []
  outbound := []
  transaction := none
  sdo := []
  backlog := 0
  pulse := none
  clShortRecords := 0
  clBadDirection := 0

/-! ## Records on the Radio Link (chapter 11) -/

/-- The fields of a TX_OUTCOME as sent (R194). -/
structure Outcome where
  id : OrderId
  attempts : Nat
  airtime : Nat
  finalRate : Nat
  frameCount : Nat
  deliveredMap : BitVec 16
  deriving DecidableEq, Repr

/-- A well-formed record from the MAC (R186, R194). -/
inductive MacRecord where
  | txOutcome (o : Outcome)
  | mediumReport (freePm : Nat)
  | mediumAlert (cause : AlertCause)
  | mediumClear
  | doze (index : Nat)
  | wake (index : Nat)
  | poll (index : Nat)
  deriving DecidableEq, Repr

/-- The fields of a TX_ORDER (R122, R194). -/
structure TxOrder where
  id : OrderId
  kind : Kind
  station : Nat
  lane : Lane
  est : Nat
  frames : List (Word32 × Nat)
  deriving DecidableEq, Repr

/-- A record bound for the MAC (R182, R194). -/
inductive RadioRecord where
  | bind (index : Nat) (address : Address)
  | unbind (index : Nat)
  | pollEmpty (index : Nat)
  | txOrder (o : TxOrder)
  | cancelAll
  deriving DecidableEq, Repr

/-- A symbol on the Radio Link (R190). Idle symbols fill the time between records. -/
inductive Symbol where
  | idle
  | startOfRecord
  | data (b : Byte)
  | endOfRecord
  deriving DecidableEq, Repr

/-- What is arriving on RL_RX: nothing, a record that has claimed a place, or one being discarded (R184). -/
inductive Arrival where
  | idle | claimed | discarding
  deriving DecidableEq, Repr

/-- The Radio Link Interface. `sending` says that the head of the outbound queue has been begun (R182), and `rlTx`
holds the symbols driven on RL_TX from the start of the record begun last on, or from a pin reset on; an idle symbol at
its end is driven until the next record begins (R190). -/
structure Rli where
  inbound : List MacRecord
  arrival : Arrival
  outbound : List RadioRecord
  sending : Bool
  rlTx : List Symbol
  rlMalformed : Nat
  rlOverrun : Nat
  deriving DecidableEq, Repr

def Rli.pinReset : Rli where
  inbound := []
  arrival := .idle
  outbound := []
  sending := false
  rlTx := [.idle]
  rlMalformed := 0
  rlOverrun := 0

/-! ## The whole part -/

/-- The part: its ten blocks, the RESET_N pin, and the commands that wait, first in, first out. -/
structure State where
  cli : Cli
  rli : Rli
  stt : Stt
  fpl : Fpl
  rck : Rck
  coh : Coh
  sel : Sel
  ord : Ord
  mgd : Mgd
  mod : Mod
  resetN : Bool
  pending : List Instr
  deriving DecidableEq, Repr

/-- Every block at its pin-reset values, with RESET_N asserted (`resetN = true`) or not (R168, R187). -/
def State.pinResetValues (asserted : Bool) : State where
  cli := .pinReset
  rli := .pinReset
  stt := .pinReset
  fpl := .pinReset
  rck := .pinReset
  coh := .pinReset
  sel := .pinReset
  ord := .pinReset
  mgd := .pinReset
  mod := .pinReset
  resetN := asserted
  pending := []

/-- The part when RESET_N has been released (R168): HALTED, configuration invalid. -/
def State.reset : State :=
  State.pinResetValues false

/-- The manual gives the part no fault that stops it: every event has an effect, if only a counted discard. No
meaning raises one. -/
inductive Fault where
  deriving DecidableEq, Repr

/-- Why a command has no meaning here. -/
inductive Refusal where
  /-- Raised by exec's arm for a command that has no meaning in this model yet; safe. No arm raises it now. -/
  | notModelled (mnemonic : String)
  deriving DecidableEq, Repr

end Sys2Proof.Machine
end

