-- ==== Sys2Proof/Machine/Ops.lean ====
section
/-!
DEFINITION. The named operations that every family uses: block updates, saturating and clamped arithmetic, device
time, the station and lane accessors, the control outbound queue with its ATTN pulses, the link notes and the
radio slot arbiter.
-/

namespace Sys2Proof.Machine

/-! ## Block updates -/

def State.updCli (s : State) (f : Cli → Cli) : State := { s with cli := f s.cli }
def State.updRli (s : State) (f : Rli → Rli) : State := { s with rli := f s.rli }
def State.updStt (s : State) (f : Stt → Stt) : State := { s with stt := f s.stt }
def State.updFpl (s : State) (f : Fpl → Fpl) : State := { s with fpl := f s.fpl }
def State.updRck (s : State) (f : Rck → Rck) : State := { s with rck := f s.rck }
def State.updCoh (s : State) (f : Coh → Coh) : State := { s with coh := f s.coh }
def State.updSel (s : State) (f : Sel → Sel) : State := { s with sel := f s.sel }
def State.updOrd (s : State) (f : Ord → Ord) : State := { s with ord := f s.ord }
def State.updMgd (s : State) (f : Mgd → Mgd) : State := { s with mgd := f s.mgd }
def State.updMod (s : State) (f : Mod → Mod) : State := { s with mod := f s.mod }

/-! ## Arithmetic -/

/-- A 32-bit counter that saturates (00_scope.md, Counters). -/
def satAdd (a b : Nat) : Nat :=
  min (a + b) Config.counterMax

/-- A used_round figure less a correction: floored at 0, saturating above (R63, R64, R78). -/
def satCorrect (used : Nat) (d : Int) : Nat :=
  min ((used : Int) - d).toNat Config.counterMax

/-- `x` clamped to [lo, hi] (00_scope.md, Arithmetic). -/
def clampInt (lo hi x : Int) : Int :=
  if x < lo then lo else if hi < x then hi else x

/-- `x` clamped to [lo, hi]. -/
def clampNat (lo hi x : Nat) : Nat :=
  if x < lo then lo else if hi < x then hi else x

/-! ## Device time (R68, R69) -/

/-- A deadline has passed when device time less the deadline, as a signed 32-bit difference, is zero or positive. -/
def passed (now deadline : Time) : Bool :=
  decide (0 ≤ (now - deadline).toInt)

/-- A deadline `us` microseconds from `now`, modulo 2^32. -/
def deadlineAfter (now : Time) (us : Nat) : Time :=
  now + BitVec.ofNat 32 us

/-- A present deadline that has passed. -/
def deadlinePassed (now : Time) (deadline : Option Time) : Bool :=
  match deadline with
  | none => false
  | some t => passed now t

/-! ## Stations and lanes -/

/-- Station record `i`. -/
def State.station (s : State) (i : Nat) : Station :=
  s.stt.stations.get (.cleared none) i

/-- Replace station record `i` by its image under `f`. -/
def State.updStation (s : State) (i : Nat) (f : Station → Station) : State :=
  s.updStt fun t => { t with stations := t.stations.modify i f }

/-- The lanes of station `i`. -/
def State.lanesOf (s : State) (i : Nat) : Lanes :=
  s.fpl.lanes.get .empty i

/-- One of a station's lanes. -/
def Lanes.get (ls : Lanes) (l : Lane) : List Frame :=
  match l with
  | .prompt => ls.prompt
  | .bulk => ls.bulk
  | .slack => ls.slack

/-- Replace one of a station's lanes. -/
def Lanes.set (ls : Lanes) (l : Lane) (q : List Frame) : Lanes :=
  match l with
  | .prompt => { ls with prompt := q }
  | .bulk => { ls with bulk := q }
  | .slack => { ls with slack := q }

/-- All three lanes are empty. -/
def Lanes.allEmpty (ls : Lanes) : Bool :=
  ls.prompt.isEmpty && ls.bulk.isEmpty && ls.slack.isEmpty

/-- The highest-priority lane that is not empty: PROMPT before BULK before SLACK (R108, R110). -/
def Lanes.first (ls : Lanes) : Option Lane :=
  if !ls.prompt.isEmpty then some .prompt
  else if !ls.bulk.isEmpty then some .bulk
  else if !ls.slack.isEmpty then some .slack
  else none

/-- How many entries a station has QUEUED. -/
def Lanes.total (ls : Lanes) : Nat :=
  ls.prompt.length + ls.bulk.length + ls.slack.length

/-- Lane `l` of station `i`, from head to tail. -/
def State.lane (s : State) (i : Nat) (l : Lane) : List Frame :=
  (s.lanesOf i).get l

/-- Replace lane `l` of station `i`. -/
def State.setLane (s : State) (i : Nat) (l : Lane) (q : List Frame) : State :=
  s.updFpl fun p => { p with lanes := p.lanes.modify i fun ls => ls.set l q }

/-- The number of DOZING stations, which STT makes available to SEL (R12). -/
def State.dozingCount (s : State) : Nat :=
  s.stt.stations.rows.countP fun x => x.state == .dozing

/-- Cohort record `c`. -/
def State.cohort (s : State) (c : Nat) : Cohort :=
  s.coh.cohorts.get .pinReset c

/-- Replace cohort record `c` by its image under `f`. -/
def State.updCohort (s : State) (c : Nat) (f : Cohort → Cohort) : State :=
  s.updCoh fun h => { h with cohorts := h.cohorts.modify c f }

/-! ## The control outbound queue (R178) and the ATTN pulses (R179) -/

/-- Free slots of the control outbound queue. -/
def State.outFree (s : State) : Nat :=
  Config.controlOutbound - s.cli.outbound.length

/-- The ATTN operation in force: none while the configuration record is invalid (R179). -/
def Mod.attnOperation (m : Mod) : Option AttnMode :=
  if m.configValid then some m.config.attnMode else none

/-- A record enters the control outbound queue. In PULSE operation it adds 1 to the pulse backlog, and a pulse begins
if none is being driven (R179). -/
def State.pushOut (s : State) (r : OutRecord) : State :=
  let pulsing : Bool := s.mod.attnOperation == some .pulse
  s.updCli fun c =>
    { c with
      outbound := c.outbound ++ [r]
      backlog := if pulsing then min (c.backlog + 1) Config.backlogMax else c.backlog
      pulse := if pulsing && c.pulse.isNone then some s.rck.deviceTime else c.pulse }

/-! ## The radio outbound queue and its arbiter (R182, R183) -/

/-- Free slots of the radio outbound queue. -/
def State.radioFree (s : State) : Nat :=
  Config.radioOutbound - s.rli.outbound.length

/-- The record of the same name that a note is handed as (R6). -/
def LinkNote.toRecord (n : LinkNote) : RadioRecord :=
  match n with
  | .bind i a => .bind i a
  | .unbind i => .unbind i
  | .pollEmpty i => .pollEmpty i

/-- The TX_ORDER of an order (R122). -/
def Order.toTxOrder (o : Order) : TxOrder where
  id := o.id
  kind := o.kind
  station := o.station
  lane := o.lane
  est := o.est
  frames := o.frames.map fun f => (f.token, f.length)

/-- The first source: a pending CANCEL_ALL takes a free slot (R183). -/
def State.giveCancel (s : State) : State :=
  if s.ord.cancelPending && decide (0 < s.radioFree) then
    (s.updRli fun r => { r with outbound := r.outbound ++ [.cancelAll] }).updOrd
      fun o => { o with cancelPending := false }
  else s

/-- How many link notes can be handed now, at most `limit`: none while a CANCEL_ALL is pending (R183). -/
def State.notesServed (s : State) (limit : Nat) : Nat :=
  if s.ord.cancelPending then 0 else min limit (min s.stt.linkNotes.length s.radioFree)

/-- The second source: up to `limit` head notes take free slots (R6, R183). -/
def State.giveNotes (s : State) (limit : Nat) : State :=
  let k := s.notesServed limit
  (s.updRli fun r =>
    { r with outbound := r.outbound ++ (s.stt.linkNotes.take k).map LinkNote.toRecord }).updStt
      fun t => { t with linkNotes := t.linkNotes.drop k }

/-- The TX_ORDERs held for orders whose sent field is WAITING, oldest first (R123). -/
def heldOrders (os : List Order) : List Order :=
  os.filter fun o => o.sent == .waiting

/-- Make the first `k` WAITING orders PLACED. -/
def placeHeld : Nat → List Order → List Order
  | _, [] => []
  | 0, os => os
  | k + 1, o :: os =>
    if o.sent = .waiting then { o with sent := .placed } :: placeHeld k os
    else o :: placeHeld (k + 1) os

/-- How many held TX_ORDERs can be placed now, at most `limit`: none while a CANCEL_ALL or a note waits (R183). -/
def State.ordersServed (s : State) (limit : Nat) : Nat :=
  if s.ord.cancelPending || !s.stt.linkNotes.isEmpty then 0
  else min limit (min (heldOrders s.ord.outstanding).length s.radioFree)

/-- The third source: up to `limit` held TX_ORDERs, oldest first, take free slots (R123, R183). -/
def State.giveOrders (s : State) (limit : Nat) : State :=
  let k := s.ordersServed limit
  (s.updRli fun r =>
    { r with outbound := r.outbound
               ++ ((heldOrders s.ord.outstanding).take k).map fun o => .txOrder o.toTxOrder }).updOrd
      fun o => { o with outstanding := placeHeld k o.outstanding }

/-- A link note has come to wait: free slots go to the CANCEL_ALL and the notes at once (R183, log entry 15). -/
def State.serveNotes (s : State) : State :=
  s.giveCancel.giveNotes s.stt.linkNotes.length

/-- A TX_ORDER has come to wait: free slots go to every source in order at once (R183, R123). -/
def State.serveOrders (s : State) : State :=
  s.serveNotes.giveOrders s.ord.outstanding.length

/-- A note joins the tail of the link note queue, and is handed at once if a slot is free for it (R6, R183). -/
def State.formNote (s : State) (n : LinkNote) : State :=
  (s.updStt fun t => { t with linkNotes := t.linkNotes ++ [n] }).serveNotes

/-- A POLL_EMPTY note, unless one for the station is already queued (R6). -/
def State.formPollEmpty (s : State) (i : Nat) : State :=
  if LinkNote.pollEmpty i ∈ s.stt.linkNotes then s else s.formNote (.pollEmpty i)

/-- ORD sets cancel pending, and the CANCEL_ALL takes a free slot at once (R137, R183). -/
def State.requestCancelAll (s : State) : State :=
  (s.updOrd fun o => { o with cancelPending := true }).giveCancel

end Sys2Proof.Machine
end

