-- ==== Sys2Proof/Machine/Operands.lean ====
section
/-!
DEFINITION. How the fields of received records are read: little-endian fields (R189), the host commands' types,
body lengths and fields (R177, R191, R192), and the MAC's records (R185, R191, R194).
-/

namespace Sys2Proof.Machine

/-- A little-endian number (R189). -/
def leNat : List Byte → Nat
  | [] => 0
  | b :: bs => b.toNat + 256 * leNat bs

/-- The `size`-byte field at `offset` (R189). -/
def field (body : List Byte) (offset size : Nat) : Nat :=
  leNat ((body.drop offset).take size)

/-- One named bit of a flag byte; its other bits are not looked at (R189). -/
def flag (body : List Byte) (offset bit : Nat) : Bool :=
  (field body offset 1).testBit bit

/-! ## Host commands -/

/-- The command a type code names (R176, R191). -/
def commandOf (typ : Byte) : Option Command :=
  match typ.toNat with
  | 0x01 => some .configure
  | 0x02 => some .start
  | 0x03 => some .stop
  | 0x04 => some .abort
  | 0x05 => some .reset
  | 0x06 => some .quiet
  | 0x07 => some .resume
  | 0x08 => some .status
  | 0x10 => some .admitStation
  | 0x11 => some .release
  | 0x12 => some .setWeight
  | 0x13 => some .hold
  | 0x20 => some .enqueue
  | 0x21 => some .flush
  | 0x30 => some .setCohort
  | 0x40 => some .query
  | _ => none

/-- Whether the body length matches the type (R177, R191). -/
def bodyLengthOk (c : Command) (body : List Byte) : Bool :=
  match c with
  | .configure => body.length == 40
  | .start | .stop | .abort | .reset | .quiet | .resume | .status => body.length == 0
  | .admitStation => body.length == 12
  | .release => body.length == 2
  | .setWeight | .hold => body.length == 4
  | .enqueue => decide (1 ≤ body.length) && body.length == 2 + 12 * field body 0 1
  | .flush => body.length == 3
  | .setCohort => body.length == 6
  | .query => body.length == 6

/-- The record that the bytes of a READY WRITE form, or none where the header is incomplete (R174). -/
def receivedRecord (bytes : List Byte) : Option HostRecord :=
  match bytes with
  | typ :: tag :: l0 :: l1 :: rest =>
    let declared := leNat [l0, l1]
    if Config.maxBody < declared then
      some { typ, tag, body := rest.take Config.maxBody, short := true }
    else some { typ, tag, body := rest.take declared, short := decide (rest.length < declared) }
  | _ => none

/-- CONFIGURE's fields as carried (R192). -/
structure RawConfiguration where
  useDefaults : Bool
  roundUs : Nat
  promptPeriodUs : Nat
  promptSync : Nat
  promptPm : Nat
  groupPm : Nat
  freeFloorPm : Nat
  freeInitialPm : Nat
  orderOverheadUs : Nat
  subframeUs : Nat
  orderMaxUs : Nat
  orderMaxFrames : Nat
  window : Nat
  orderTimeoutMs : Nat
  lossLimit : Nat
  requeueMax : Nat
  laneLimit : Nat
  debtLimitUs : Nat
  spill : Nat
  reportEvery : Nat
  blankMs : Nat
  groupRate : Nat
  defaultRate : Nat
  attnMode : Nat
  attnActive : Nat
  deriving DecidableEq, Repr

def parseConfigure (b : List Byte) : RawConfiguration where
  useDefaults := flag b 0 0
  roundUs := field b 1 4
  promptPeriodUs := field b 5 2
  promptSync := field b 7 1
  promptPm := field b 8 2
  groupPm := field b 10 2
  freeFloorPm := field b 12 2
  freeInitialPm := field b 14 2
  orderOverheadUs := field b 16 2
  subframeUs := field b 18 1
  orderMaxUs := field b 19 2
  orderMaxFrames := field b 21 1
  window := field b 22 1
  orderTimeoutMs := field b 23 1
  lossLimit := field b 24 1
  requeueMax := field b 25 1
  laneLimit := field b 26 2
  debtLimitUs := field b 28 2
  spill := field b 30 1
  reportEvery := field b 31 1
  blankMs := field b 32 2
  groupRate := field b 34 2
  defaultRate := field b 36 2
  attnMode := field b 38 1
  attnActive := field b 39 1

/-- `x` lies in lo..hi. -/
def inRange (lo hi x : Nat) : Bool :=
  decide (lo ≤ x) && decide (x ≤ hi)

/-- Every field lies in its range of R159, the two cross-field conditions included. -/
def RawConfiguration.valid (r : RawConfiguration) : Bool :=
  inRange 10000 250000 r.roundUs
    && inRange 2000 50000 r.promptPeriodUs && decide (r.promptPeriodUs ≤ r.roundUs)
    && inRange 0 1 r.promptSync && inRange 0 500 r.promptPm && inRange 0 300 r.groupPm
    && inRange 100 1000 r.freeFloorPm && inRange r.freeFloorPm 1000 r.freeInitialPm
    && inRange 0 500 r.orderOverheadUs && inRange 0 50 r.subframeUs
    && inRange 500 5000 r.orderMaxUs && inRange 1 16 r.orderMaxFrames
    && inRange 1 4 r.window && inRange 1 255 r.orderTimeoutMs
    && inRange 1 15 r.lossLimit && inRange 0 3 r.requeueMax && inRange 4 256 r.laneLimit
    && inRange 0 65535 r.debtLimitUs && inRange 0 1 r.spill && inRange 0 16 r.reportEvery
    && inRange 0 2000 r.blankMs && inRange 2 2400 r.groupRate && inRange 2 2400 r.defaultRate
    && inRange 0 1 r.attnMode && inRange 0 1 r.attnActive

/-- The record that carried fields write (R160): the defaults with USE_DEFAULTS set, else the values carried. -/
def RawConfiguration.toConfiguration (r : RawConfiguration) : Configuration :=
  if r.useDefaults then Configuration.default
  else
    { roundUs := r.roundUs
      promptPeriodUs := r.promptPeriodUs
      promptSync := r.promptSync == 1
      promptPm := r.promptPm
      groupPm := r.groupPm
      freeFloorPm := r.freeFloorPm
      freeInitialPm := r.freeInitialPm
      orderOverheadUs := r.orderOverheadUs
      subframeUs := r.subframeUs
      orderMaxUs := r.orderMaxUs
      orderMaxFrames := r.orderMaxFrames
      window := r.window
      orderTimeoutMs := r.orderTimeoutMs
      lossLimit := r.lossLimit
      requeueMax := r.requeueMax
      laneLimit := r.laneLimit
      debtLimitUs := r.debtLimitUs
      spill := r.spill == 1
      reportEvery := r.reportEvery
      blankMs := r.blankMs
      groupRate := r.groupRate
      defaultRate := r.defaultRate
      attnMode := if r.attnMode == 1 then .pulse else .level
      attnActive := if r.attnActive == 1 then .high else .low }

/-- ADMIT's fields (R192). -/
structure AdmitFields where
  index : Nat
  address : Address
  weight : Nat
  rate : Nat
  deriving DecidableEq, Repr

def parseAdmit (b : List Byte) : AdmitFields where
  index := field b 0 2
  address := BitVec.ofNat 48 (field b 2 6)
  weight := field b 8 1
  rate := field b 10 2

/-- SET_WEIGHT's or HOLD's fields (R192): the value is the weight, or 0 clear and 1 set. -/
structure StationChange where
  index : Nat
  value : Nat
  immediate : Bool
  deriving DecidableEq, Repr

def parseStationChange (b : List Byte) : StationChange where
  index := field b 0 2
  value := field b 2 1
  immediate := flag b 3 0

/-- One frame record of an ENQUEUE (R192). -/
structure FrameFields where
  token : Word32
  station : Nat
  lane : Nat
  noAgg : Bool
  length : Nat
  lifetimeMs : Nat
  deriving DecidableEq, Repr

/-- The frame record in the 12 bytes at `offset`. -/
def parseFrame (b : List Byte) (offset : Nat) : FrameFields where
  token := BitVec.ofNat 32 (field b offset 4)
  station := field b (offset + 4) 2
  lane := field b (offset + 6) 1
  noAgg := flag b (offset + 7) 0
  length := field b (offset + 8) 2
  lifetimeMs := field b (offset + 10) 2

/-- ENQUEUE's frame count as sent. -/
def enqueueCount (b : List Byte) : Nat :=
  field b 0 1

/-- ENQUEUE's frame records, in frame-record order. -/
def parseEnqueue (b : List Byte) : List FrameFields :=
  (List.range (enqueueCount b)).map fun k => parseFrame b (2 + 12 * k)

/-- The lane a lane number names (R191). -/
def laneOf (n : Nat) : Option Lane :=
  match n with
  | 0 => some .prompt
  | 1 => some .bulk
  | 2 => some .slack
  | _ => none

/-- FLUSH's fields (R192). -/
structure FlushFields where
  station : Nat
  mask : Nat
  deriving DecidableEq, Repr

def parseFlush (b : List Byte) : FlushFields where
  station := field b 0 2
  mask := field b 2 1

/-- The lanes a mask names, in the order PROMPT, BULK, SLACK; none where it names no lane or sets a bit above 2 (R38). -/
def maskLanes (mask : Nat) : Option (List Lane) :=
  if mask = 0 || decide (7 < mask) then none
  else
    some ((if mask.testBit 0 then [.prompt] else [])
      ++ (if mask.testBit 1 then [.bulk] else []) ++ (if mask.testBit 2 then [.slack] else []))

/-- SET_COHORT's fields (R192). -/
structure CohortFields where
  number : Nat
  span : Nat
  capPm : Nat
  deriving DecidableEq, Repr

def parseSetCohort (b : List Byte) : CohortFields where
  number := field b 0 1
  span := field b 2 2
  capPm := field b 4 2

/-- The tables of QUERY (R180). -/
inductive QueryTable where
  | station | cohort | counters | activeList | outstanding | quarantine
  deriving DecidableEq, Repr

/-- QUERY's fields (R192); `table` is none where the code names no table. -/
structure QueryFields where
  table : Option QueryTable
  start : Nat
  count : Nat
  deriving DecidableEq, Repr

/-- The table a code names (R191). -/
def queryTableOf (n : Nat) : Option QueryTable :=
  match n with
  | 0 => some .station
  | 1 => some .cohort
  | 2 => some .counters
  | 3 => some .activeList
  | 4 => some .outstanding
  | 5 => some .quarantine
  | _ => none

def parseQuery (b : List Byte) : QueryFields where
  table := queryTableOf (field b 0 1)
  start := field b 2 2
  count := field b 4 2

/-! ## Records from the MAC -/

/-- The cause an alert's cause byte names; an unlisted value is OTHER (R147, R191). -/
def alertCauseOf (n : Nat) : AlertCause :=
  match n with
  | 1 => .vacate
  | 2 => .interference
  | 3 => .switch
  | _ => .other

def parseOutcome (b : List Byte) : Outcome where
  id := BitVec.ofNat 8 (field b 0 1)
  attempts := field b 1 1
  airtime := field b 2 2
  finalRate := field b 4 2
  frameCount := field b 6 1
  deliveredMap := BitVec.ofNat 16 (field b 8 2)

/-- The record that a type code and body form, or none where the type is not the MAC's or the body does not have the
length the type fixes (R185, R191, R194). -/
def parseMacBody (typ : Byte) (body : List Byte) : Option MacRecord :=
  match typ.toNat, body.length with
  | 0x60, 10 => some (.txOutcome (parseOutcome body))
  | 0x61, 2 => some (.mediumReport (field body 0 2))
  | 0x62, 1 => some (.mediumAlert (alertCauseOf (field body 0 1)))
  | 0x63, 0 => some .mediumClear
  | 0x64, 2 => some (.doze (field body 0 2))
  | 0x65, 2 => some (.wake (field body 0 2))
  | 0x66, 2 => some (.poll (field body 0 2))
  | _, _ => none

/-- The record that the data bytes framed on the Radio Link form, or none where it is malformed (R185). The tag is
ignored (R189). -/
def parseMacRecord (framed : List Byte) : Option MacRecord :=
  match framed with
  | typ :: _ :: l0 :: l1 :: body =>
    if body.length = leNat [l0, l1] then parseMacBody typ body else none
  | _ => none

end Sys2Proof.Machine
end

