-- ==== Sys2Proof/Machine/Airtime.lean ====
section
/-!
DEFINITION. The airtime arithmetic of chapter 3: estimates, rates, allotments, quanta, caps. Pure functions; the
blocks that own the results apply them.
-/

namespace Sys2Proof.Machine

/-- The payload time of a frame of `length` bytes at rate `r`, rounded up (R48). -/
def payloadTime (length r : Nat) : Nat :=
  (length * 16 + r - 1) / r

/-- The exact sum of R49 before it saturates. -/
def airtimeSum (cfg : Configuration) (r : Nat) (frames : List Frame) : Nat :=
  cfg.orderOverheadUs + (frames.map fun f => cfg.subframeUs + payloadTime f.length r).sum

/-- The estimate of an order of these frames at rate `r`, saturating at 65,535 (R49). -/
def estimate (cfg : Configuration) (r : Nat) (frames : List Frame) : Nat :=
  min (airtimeSum cfg r frames) Config.airtimeMax

/-- A final rate clamped to 2..2400 (R52). -/
def clampRate (q : Nat) : Nat :=
  clampNat Config.minRate Config.maxRate q

/-- The rate estimate blended with a final rate that is not 0 (R51). -/
def blendRate (old q : Nat) : Nat :=
  clampRate ((3 * old + clampRate q + 2) / 4)

/-- The free share sampled at a boundary, raised to the floor (R53). -/
def freePm (cfg : Configuration) (freeNow : Nat) : Nat :=
  clampNat cfg.freeFloorPm 1000 freeNow

/-- R54. -/
def usableAirtime (cfg : Configuration) (pm : Nat) : Nat :=
  cfg.roundUs * pm / 1000

/-- R54. -/
def groupAllotment (cfg : Configuration) (usable : Nat) : Nat :=
  usable * cfg.groupPm / 1000

/-- R54. -/
def poolOf (cfg : Configuration) (usable : Nat) : Nat :=
  usable - groupAllotment cfg usable

/-- The quantum of a station of this weight; none is granted when W is 0 (R56, R57). -/
def quantumOf (pool weight w : Nat) : Nat :=
  if w = 0 then 0 else pool * weight / w

/-- The cap that goes with a quantum (R19). -/
def capOf (cfg : Configuration) (quantum : Nat) : Nat :=
  min Config.airtimeMax (max (2 * quantum) cfg.orderMaxUs)

/-- A cohort's allotment (R59). -/
def cohortAllotment (usable capPm : Nat) : Nat :=
  usable * capPm / 1000

/-- The prompt allotment (R60). -/
def promptAllotment (cfg : Configuration) (pm : Nat) : Nat :=
  cfg.promptPeriodUs * pm * cfg.promptPm / 1000000

/-- A balance clamped to the bounds in force (R16). -/
def clampBalance (cfg : Configuration) (cap : Nat) (b : Int) : Int :=
  clampInt (-(cfg.debtLimitUs : Int)) cap b

/-- A budget charged: it is clamped at −65,535 (R62). -/
def chargeBudget (b : Int) (est : Nat) : Int :=
  max (b - est) (-(Config.airtimeMax : Int))

/-- A budget corrected: clamped to [−65,535, allot] (R64, R65). -/
def correctBudget (b : Int) (d : Int) (allot : Nat) : Int :=
  clampInt (-(Config.airtimeMax : Int)) allot (b + d)

end Sys2Proof.Machine
end

