-- ==== Sys2Proof/Machine/Flags.lean ====
section
/-!
DEFINITION. Flags and pins: the group-due flag (R101), pending-alert (R169), PART_RDY (R184) and CL_ATTN (R179).
-/

namespace Sys2Proof.Machine

/-- The group-due flag (R101). -/
def State.setGroupDue (s : State) (v : Bool) : State :=
  s.updSel fun e => { e with groupDue := v }

/-- A charge or correction that leaves the group budget at 0 or below clears the group-due flag (R101). -/
def State.setGroupBudget (s : State) (b : Int) : State :=
  s.updSel fun e => { e with groupBudget := b, groupDue := e.groupDue && decide (0 < b) }

/-- The pending-alert flag is set; a setting while it is set leaves it set (R169). -/
def State.setPendingAlert (s : State) : State :=
  s.updMod fun m => { m with pendingAlert := true }

/-- The mode becomes `m`; every change of mode sets pending-alert (R169). -/
def State.setMode (s : State) (m : Mode) : State :=
  if s.mod.mode = m then s
  else (s.updMod fun d => { d with mode := m }).setPendingAlert

/-- Places of the radio inbound queue that are claimed (R184). -/
def State.claimedPlaces (s : State) : Nat :=
  s.rli.inbound.length + (if s.rli.arrival = .claimed then 1 else 0)

/-- PART_RDY: asserted while a place is free, but not while RESET_N is asserted (R184, R187). -/
def State.partRdy (s : State) : Bool :=
  !s.resetN && decide (s.claimedPlaces < Config.radioInbound)

/-- The level opposite to `l`. -/
def Level.opposite (l : Level) : Level :=
  match l with
  | .low => .high
  | .high => .low

/-- Whether CL_ATTN is active (R179): in LEVEL while a record is queued; in PULSE during the first microsecond of a
pulse; never while the configuration record is invalid. -/
def State.attnActive (s : State) : Bool :=
  match s.mod.attnOperation with
  | none => false
  | some .level => !s.cli.outbound.isEmpty
  | some .pulse =>
    match s.cli.pulse with
    | none => false
    | some t => s.rck.deviceTime == t

/-- The level of CL_ATTN (R179). -/
def State.attnLevel (s : State) : Level :=
  if s.attnActive then s.mod.config.attnActive else s.mod.config.attnActive.opposite

/-- The pulse being driven has lasted its 2 µs (R179). -/
def State.pulseEnded (s : State) : Bool :=
  match s.cli.pulse with
  | none => false
  | some t => passed s.rck.deviceTime (deadlineAfter t Config.pulseUs)

/-- The ATTN operation in force changed from `before`: entering LEVEL discards the backlog, entering PULSE starts it at
0 (R179). -/
def State.reformAttn (s : State) (before : Option AttnMode) : State :=
  if s.mod.attnOperation = before then s
  else s.updCli fun c => { c with backlog := 0, pulse := none }

/-- The quiet-cause set is empty. -/
def QuietCauses.isEmpty (q : QuietCauses) : Bool :=
  !(q.medium || q.link || q.host)

end Sys2Proof.Machine
end

