-- ==== Sys2Proof/Machine/SelectorLists.lean ====
section
/-!
DEFINITION. SEL's three lists as STT and the steps change them (R96 to R100).
-/

namespace Sys2Proof.Machine

/-- An index joins a list at its tail, once. -/
def joinTail (q : List Nat) (i : Nat) : List Nat :=
  if i ∈ q then q else q ++ [i]

/-- A station is placed on the active list. The ring is read from the cursor's station, so just before the cursor is
the end of the list (R97). -/
def State.placeActive (s : State) (i : Nat) : State :=
  s.updSel fun e => { e with active := joinTail e.active i }

/-- A station leaves the active list; when the cursor names it, the cursor moves to its successor (R98). -/
def State.removeActive (s : State) (i : Nat) : State :=
  s.updSel fun e => { e with active := e.active.erase i }

/-- A station joins the tail of the prompt list (R99). -/
def State.placePrompt (s : State) (i : Nat) : State :=
  s.updSel fun e => { e with prompt := joinTail e.prompt i }

/-- A station leaves the prompt list from whatever position it holds (R99). -/
def State.removePrompt (s : State) (i : Nat) : State :=
  s.updSel fun e => { e with prompt := e.prompt.erase i }

/-- A station joins the tail of the poll list (R100). -/
def State.placePoll (s : State) (i : Nat) : State :=
  s.updSel fun e => { e with poll := joinTail e.poll i }

/-- A station leaves the poll list, which withdraws its grant (R100). -/
def State.removePoll (s : State) (i : Nat) : State :=
  s.updSel fun e => { e with poll := e.poll.erase i }

/-- A station leaves every list (R7). -/
def State.removeFromLists (s : State) (i : Nat) : State :=
  ((s.removeActive i).removePrompt i).removePoll i

/-- The ring with the cursor moved to the successor of `i` (R110). -/
def rotatePast (ring : List Nat) (i : Nat) : List Nat :=
  (ring.dropWhile (· != i)).drop 1 ++ ring.takeWhile (· != i) ++ ring.filter (· == i)

end Sys2Proof.Machine
end

