-- ==== Sys2Proof/Machine/Stations.lean ====
section
/-!
DEFINITION. STT's shared operations: lane changes (R3), in_flight and the clearing of a LEAVING station (R8, R17),
staged changes (R11), charges and corrections of an account (R61, R63), the rate (R51), the refill (R19), the
re-clamp (R20) and the soft reset (R21).
-/

namespace Sys2Proof.Machine

/-- A station's state changes. -/
def State.setStationState (s : State) (i : Nat) (st : StationState) : State :=
  s.updStation i fun x => { x with state := st }

/-- A station record as it comes back into service in the state `st`, from empty lanes or from a doze. In the middle of
a round, while the round clock runs, its quantum is 0 until the next boundary; its balance stands (R13, R56, log
entry 30). -/
def Station.resumed (x : Station) (st : StationState) (midRound : Bool) : Station :=
  { x with state := st, quantum := if midRound then 0 else x.quantum }

/-- Station `i` comes back into service in the state `st` (R13, R56). -/
def State.resumeAs (s : State) (i : Nat) (st : StationState) : State :=
  s.updStation i fun x => x.resumed st s.rck.clocksRunning

/-- R3 for a lane that held no QUEUED entry and has received one. A station that joins the active list in the middle of a
round has quantum 0 (R56). -/
def State.laneNonempty (s : State) (i : Nat) (l : Lane) : State :=
  if i = 0 then
    if s.dozingCount = 0 then s.setGroupDue true else s
  else
    match (s.station i).state with
    | .idle =>
      let t := (s.resumeAs i .backlogged).placeActive i
      if l = .prompt then t.placePrompt i else t
    | .backlogged => if l = .prompt then s.placePrompt i else s
    | .dozing | .leaving | .vacant => s

/-- R3 for a lane whose last QUEUED entry has left it. The POLL_EMPTY note is formed whatever took the entry, a FLUSH
included (R3, R100, against the last sentence of R38; log entry 29). -/
def State.laneEmpty (s : State) (i : Nat) (l : Lane) : State :=
  if i = 0 then s.setGroupDue false
  else
    match (s.station i).state with
    | .backlogged =>
      let t := if l = .prompt then s.removePrompt i else s
      if (t.lanesOf i).allEmpty then (t.setStationState i .idle).removeActive i else t
    | .dozing =>
      if (s.lanesOf i).allEmpty && decide (i ∈ s.sel.poll) then (s.removePoll i).formPollEmpty i else s
    | .idle | .leaving | .vacant => s

/-- The record returns to its cleared values; the derived cohort stays (R1). -/
def State.clearStation (s : State) (i : Nat) : State :=
  s.updStation i fun x => .cleared x.cohort

/-- ORD has issued an order for the station (R17). -/
def State.raiseInFlight (s : State) (i : Nat) : State :=
  s.updStation i fun x => { x with inFlight := x.inFlight + 1 }

/-- ORD has concluded an order of the station (R17); a LEAVING station whose count falls to 0 becomes VACANT, with an
UNBIND note (R8). -/
def State.lowerInFlight (s : State) (i : Nat) : State :=
  let t := s.updStation i fun x => { x with inFlight := x.inFlight - 1 }
  let x := t.station i
  if x.state = .leaving ∧ x.inFlight = 0 then (t.clearStation i).formNote (.unbind i) else t

/-- One record's staged changes applied (R11). -/
def Station.applyStaged (x : Station) : Station :=
  { x with
    weight := x.stagedWeight.getD x.weight
    stagedWeight := none
    held := x.stagedHold.getD x.held
    stagedHold := none }

/-- STT applies the staged changes of every record (R11). -/
def State.applyStagedStations (s : State) : State :=
  s.updStt fun t => { t with stations := t.stations.mapIdx fun _ x => x.applyStaged }

/-- A charge at issue (R61); station 0's balance stays at 0 (R2). -/
def State.chargeStation (s : State) (i est : Nat) : State :=
  s.updStation i fun x =>
    { x with
      balance := if i = 0 then x.balance else clampBalance s.mod.config x.cap (x.balance - est)
      usedRound := satAdd x.usedRound est }

/-- A correction at an accepted outcome (R63); station 0's balance stays at 0 (R2). -/
def State.correctStation (s : State) (i : Nat) (d : Int) : State :=
  s.updStation i fun x =>
    { x with
      balance := if i = 0 then x.balance else clampBalance s.mod.config x.cap (x.balance + d)
      usedRound := satCorrect x.usedRound d }

/-- The rate update of an accepted outcome (R51, R52): none for station 0 and none for a final rate of 0. -/
def State.updateRate (s : State) (i q : Nat) : State :=
  if i = 0 ∨ q = 0 then s
  else s.updStation i fun x => { x with rate := blendRate x.rate q }

/-- The failed count of a timeout (R18, R131). -/
def State.countLost (s : State) (i lost : Nat) : State :=
  s.updStation i fun x => { x with failed := satAdd x.failed lost }

/-- The delivered and failed counts of an accepted outcome (R18). -/
def State.countFrames (s : State) (i delivered failed : Nat) : State :=
  s.updStation i fun x =>
    { x with delivered := satAdd x.delivered delivered, failed := satAdd x.failed failed }

/-- The used_round figures are set to 0 at a round boundary (R19). -/
def State.clearStationUsage (s : State) : State :=
  s.updStt fun t => { t with stations := t.stations.mapIdx fun _ x => { x with usedRound := 0 } }

/-- The weight of station `i`. -/
def State.weightOf (s : State) (i : Nat) : Nat :=
  (s.station i).weight

/-- W: the sum of the weights of the stations on the active list (R55). -/
def State.weightSum (s : State) : Nat :=
  (s.sel.active.map s.weightOf).sum

/-- The sum of the quanta granted from `pool` (R56). -/
def State.quantaSum (s : State) (pool : Nat) : Nat :=
  (s.sel.active.map fun i => quantumOf pool (s.weightOf i) s.weightSum).sum

/-- One record's refill at a round boundary (R19). -/
def Station.refill (cfg : Configuration) (pool w : Nat) (onActive : Bool) (i : Nat) (x : Station) : Station :=
  if x.state = .vacant ∨ i = 0 then x
  else if onActive then
    let q := quantumOf pool x.weight w
    { x with
      quantum := q
      cap := capOf cfg q
      balance := min ((capOf cfg q : Nat) : Int) (x.balance + q) }
  else { x with quantum := 0, cap := cfg.orderMaxUs, balance := min x.balance 0 }

/-- STT refills every record (R19). -/
def State.refillStations (s : State) (pool : Nat) : State :=
  let w := s.weightSum
  let active := s.sel.active
  s.updStt fun t =>
    { t with stations := t.stations.mapIdx fun i x => x.refill s.mod.config pool w (decide (i ∈ active)) i }

/-- One record re-clamped by a CONFIGURE in READY (R20). -/
def Station.reclamp (cfg : Configuration) (i : Nat) (x : Station) : Station :=
  let rate := if i = 0 then cfg.groupRate else x.rate
  let cap :=
    if i = 0 then cfg.orderMaxUs
    else if x.state = .vacant then x.cap
    else capOf cfg x.quantum
  { x with rate := rate, cap := cap, balance := clampBalance cfg cap x.balance }

/-- STT re-clamps the records (R20). -/
def State.reclampStations (s : State) : State :=
  s.updStt fun t => { t with stations := t.stations.mapIdx fun i x => x.reclamp s.mod.config i }

/-- One record after a soft reset (R21): an admitted client station, or station 0. -/
def Station.softReset (cfg : Configuration) (x : Station) : Station :=
  if x.state = .vacant then x
  else
    { x with
      balance := 0
      quantum := 0
      usedRound := 0
      delivered := 0
      failed := 0
      cap := cfg.orderMaxUs
      held := false
      stagedWeight := none
      stagedHold := none }

/-- STT's part of a soft reset (R21). -/
def State.softResetStations (s : State) : State :=
  s.updStt fun t =>
    { t with
      stations := t.stations.mapIdx fun _ x => x.softReset s.mod.config
      radioIgnored := 0 }

/-- STT discards a radio event and counts it (R15). -/
def State.ignoreRadio (s : State) : State :=
  s.updStt fun t => { t with radioIgnored := satAdd t.radioIgnored 1 }

end Sys2Proof.Machine
end

