-- ==== Sys2Proof/Machine/Frames.lean ====
section
/-!
DEFINITION. FPL's shared operations: the expiry list (R35), acceptance (R28), the take (R31), requeue (R32),
returns (R34, R36, R38, R40, R46).
-/

namespace Sys2Proof.Machine

/-! ## The expiry list -/

/-- `a` stands before `b` on the expiry list: earlier deadline by the signed difference, then lower sequence (R35). -/
def ExpiryRef.before (a b : ExpiryRef) : Bool :=
  decide (0 < (b.deadline - a.deadline).toInt)
    || (a.deadline == b.deadline && decide (a.sequence < b.sequence))

/-- A reference joins the expiry list at its place. -/
def insertExpiry (r : ExpiryRef) : List ExpiryRef → List ExpiryRef
  | [] => [r]
  | x :: xs => if r.before x then r :: x :: xs else x :: insertExpiry r xs

/-- A QUEUED entry joins the expiry list if it has a deadline (R35). -/
def joinExpiry (q : List ExpiryRef) (f : Frame) : List ExpiryRef :=
  match f.deadline with
  | none => q
  | some t => insertExpiry { deadline := t, sequence := f.sequence, station := f.station, lane := f.lane } q

/-- Entries leave the expiry list (R35). -/
def leaveExpiry (q : List ExpiryRef) (fs : List Frame) : List ExpiryRef :=
  q.filter fun r => !fs.any fun f => f.sequence == r.sequence

/-! ## The return list -/

/-- Entries join the tail of the return list, each with its result (R41). -/
def State.returnFrames (s : State) (rs : List Returning) : State :=
  s.updFpl fun p => { p with returnList := p.returnList ++ rs }

/-- Frames with one result. -/
def withResult (fs : List Frame) (result : FrameResult) : List Returning :=
  fs.map fun f => { frame := f, result := result }

/-- Every QUEUED entry of a lane is returned, from head to tail, and the lane-empty change is reported (R38, R40, R46). -/
def State.returnLane (s : State) (i : Nat) (result : FrameResult) (l : Lane) : State :=
  match s.lane i l with
  | [] => s
  | fs =>
    (((s.setLane i l []).updFpl fun p => { p with expiry := leaveExpiry p.expiry fs }).returnFrames
      (withResult fs result)).laneEmpty i l

/-- The lanes of a station in the order PROMPT, BULK, SLACK. -/
def allLanes : List Lane := [.prompt, .bulk, .slack]

/-- The given lanes of a station are returned in order. -/
def State.returnLanes (s : State) (i : Nat) (result : FrameResult) (ls : List Lane) : State :=
  ls.foldl (fun t l => t.returnLane i result l) s

/-- Every QUEUED entry of every station is returned FLUSHED, stations ascending (R46). -/
def State.flushAll (s : State) : State :=
  (List.range Config.stationCount).foldl (fun t i => t.returnLanes i .flushed allLanes) s

/-! ## Acceptance (R27, R28) -/

/-- The entry that an accepted frame's fields fill (R28). -/
def State.newFrame (s : State) (token : Word32) (i : Nat) (l : Lane) (length lifetimeMs : Nat) (noAgg : Bool) :
    Frame where
  token := token
  station := i
  lane := l
  length := length
  deadline :=
    if lifetimeMs = 0 then none else some (deadlineAfter s.rck.deviceTime (lifetimeMs * 1000))
  noAgg := noAgg
  requeues := 0
  sequence := s.fpl.nextSequence

/-- FPL takes a FREE entry for `f`, which joins the tail of its lane and, with a deadline, the expiry list (R28). -/
def State.acceptFrame (s : State) (f : Frame) : State :=
  let q := s.lane f.station f.lane
  let t := (s.setLane f.station f.lane (q ++ [f])).updFpl fun p =>
    { p with
      freeEntries := p.freeEntries - 1
      expiry := joinExpiry p.expiry f
      nextSequence := p.nextSequence + 1
      framesAccepted := satAdd p.framesAccepted 1 }
  if q.isEmpty then t.laneNonempty f.station f.lane else t

/-! ## Frames lent to orders -/

/-- ORD takes the first `n` entries of a lane (R31). -/
def State.takeFrames (s : State) (i : Nat) (l : Lane) (n : Nat) : State :=
  let q := s.lane i l
  let t := (s.setLane i l (q.drop n)).updFpl fun p => { p with expiry := leaveExpiry p.expiry (q.take n) }
  if (q.drop n).isEmpty then t.laneEmpty i l else t

/-- A requeued entry (R32). -/
def Frame.requeued (f : Frame) : Frame :=
  { f with requeues := f.requeues + 1 }

/-- The requeued frames of one order join the head of their lane in their relative order (R32). The report to SEL is
made by the conclusion that requeues them. -/
def State.requeueFrames (s : State) (i : Nat) (l : Lane) (fs : List Frame) : State :=
  if fs.isEmpty then s
  else
    let q := s.lane i l
    let rs := fs.map Frame.requeued
    let t := (s.setLane i l (rs ++ q)).updFpl fun p =>
      { p with
        expiry := rs.foldl joinExpiry p.expiry
        framesRequeued := satAdd p.framesRequeued fs.length }
    if q.isEmpty then t.laneNonempty i l else t

/-! ## Expiry (R36) -/

/-- The reference at the head of the expiry list, if its deadline has passed (R36). -/
def State.expiryDue (s : State) : Option ExpiryRef :=
  match s.fpl.expiry with
  | [] => none
  | r :: _ => if passed s.rck.deviceTime r.deadline then some r else none

/-- The entry that `r` names leaves the expiry list and its lane and is returned EXPIRED (R36). -/
def State.expireFrame (s : State) (r : ExpiryRef) : State :=
  let q := s.lane r.station r.lane
  let named : Frame → Bool := fun f => f.sequence == r.sequence
  let t := s.updFpl fun p => { p with expiry := p.expiry.drop 1 }
  match q.find? named with
  | none => t
  | some f =>
    let q' := q.eraseP named
    let u := ((t.setLane r.station r.lane q').returnFrames [{ frame := f, result := .expired }]).updFpl
      fun p => { p with framesExpired := satAdd p.framesExpired 1 }
    if q'.isEmpty then u.laneEmpty r.station r.lane else u

end Sys2Proof.Machine
end

