-- ==== Sys2Proof/Machine/Cohorts.lean ====
section
/-!
DEFINITION. COH's shared operations: span codes (R85), membership (R88), staged changes and boundary work (R89,
R90), the gate (R91), charges and corrections (R62, R64), the soft reset (R94).
-/

namespace Sys2Proof.Machine

/-- The position of the lowest set bit of a span (R85). -/
def lowestBit (span : Nat) : Option Nat :=
  (List.range 10).find? fun p => span.testBit p

/-- The base and size of the range a non-zero span names (R85). -/
def spanRange (span : Nat) : Option (Nat × Nat) :=
  (lowestBit span).map fun p => (span - 2 ^ p, 2 ^ p)

/-- Whether a span's range holds index `i` (R85); a span of 0 names no range. -/
def spanHolds (span i : Nat) : Bool :=
  match spanRange span with
  | none => false
  | some (base, size) => decide (base ≤ i) && decide (i < base + size)

/-- A cohort is enabled while its span is not 0 (R84). -/
def Cohort.enabled (c : Cohort) : Bool :=
  c.span != 0

/-- The lowest-numbered enabled cohort whose range holds `i`; index 0 belongs to none (R88). -/
def memberOf (cohorts : List Cohort) (i : Nat) : Option Nat :=
  if i = 0 then none else cohorts.findIdx? fun c => c.enabled && spanHolds c.span i

/-- COH recomputes membership and writes each record's cohort field (R88). -/
def State.recomputeMembership (s : State) : State :=
  let cs := s.coh.cohorts.rows
  s.updStt fun t => { t with stations := t.stations.mapIdx fun i x => { x with cohort := memberOf cs i } }

/-- Membership is recomputed if any span differs from those in `before` (R88). -/
def State.membershipAfter (s : State) (before : Coh) : State :=
  if s.coh.cohorts.rows.map Cohort.span = before.cohorts.rows.map Cohort.span then s
  else s.recomputeMembership

/-- One record's staged change applied (R89 step 2). -/
def Cohort.applyStaged (c : Cohort) : Cohort :=
  { c with
    span := c.stagedSpan.getD c.span
    capPm := c.stagedCapPm.getD c.capPm
    stagedSpan := none
    stagedCapPm := none }

/-- COH applies every staged change and recomputes membership if a span changed (R89 steps 2 and 3, R90). -/
def State.applyStagedCohorts (s : State) : State :=
  (s.updCoh fun h => { h with cohorts := h.cohorts.mapIdx fun _ c => c.applyStaged }).membershipAfter s.coh

/-- The used_round figures of all 32 records are set to 0 (R89 step 1, R94). -/
def State.clearCohortUsage (s : State) : State :=
  s.updCoh fun h => { h with cohorts := h.cohorts.mapIdx fun _ c => { c with usedRound := 0 } }

/-- One enabled record's allotment and budget (R89 step 4, R59). -/
def Cohort.refill (usable : Nat) (c : Cohort) : Cohort :=
  if c.enabled then
    { c with allot := cohortAllotment usable c.capPm, budget := (cohortAllotment usable c.capPm : Nat) }
  else c

/-- COH forms the allotments from the usable airtime (R89 step 4). -/
def State.refillCohorts (s : State) (usable : Nat) : State :=
  s.updCoh fun h => { h with cohorts := h.cohorts.mapIdx fun _ c => c.refill usable }

/-- The gate of R91: a station with no cohort passes, another while its cohort's budget is above 0. -/
def State.cohortGate (s : State) (i : Nat) : Bool :=
  match (s.station i).cohort with
  | none => true
  | some c => decide (0 < (s.cohort c).budget)

/-- The charge of an issue to the cohort of the station, if it has one (R62). -/
def State.chargeCohort (s : State) (c : Option Nat) (est : Nat) : State :=
  match c with
  | none => s
  | some n =>
    s.updCohort n fun x =>
      { x with budget := chargeBudget x.budget est, usedRound := satAdd x.usedRound est }

/-- The correction of an order's cohort: only in the order's own round and while the cohort is enabled (R64). -/
def State.correctCohort (s : State) (o : Order) (d : Int) : State :=
  match o.cohort with
  | none => s
  | some n =>
    if o.round = s.rck.round ∧ (s.cohort n).enabled = true then
      s.updCohort n fun x =>
        { x with budget := correctBudget x.budget d x.allot, usedRound := satCorrect x.usedRound d }
    else s

/-- COH's part of a soft reset (R94). -/
def State.softResetCohorts (s : State) : State :=
  s.updCoh fun h =>
    { h with cohorts := h.cohorts.mapIdx fun _ c =>
        { c with stagedSpan := none, stagedCapPm := none, usedRound := 0 } }

/-- The cohorts enabled now with their used_round, in ascending number (R80). -/
def State.cohortUsage (s : State) : List (Nat × Nat) :=
  (s.coh.cohorts.rows.zipIdx.filter fun p => p.1.enabled).map fun p => (p.2, p.1.usedRound)

end Sys2Proof.Machine
end

