-- ==== Sys2Proof/Machine/Selector.lean ====
section
/-!
DEFINITION. A selection run (R104 to R113): the five steps and the choice.
-/

namespace Sys2Proof.Machine

/-- The choice a step makes, with the lists and cursor as the step leaves them (R106). -/
structure Picked where
  choice : Choice
  sel : Sel
  deriving DecidableEq, Repr

/-- The group step (R107). -/
def State.groupStep (s : State) : Option Picked :=
  if s.sel.groupDue && !(s.lane 0 .bulk).isEmpty && decide (0 < s.sel.groupBudget) then
    some { choice := { station := 0, lane := .bulk, kind := .group }, sel := s.sel }
  else none

/-- The poll step (R108). The head of the poll list has a non-empty lane in every state a run reaches. -/
def State.pollStep (s : State) : Option Picked :=
  match s.sel.poll with
  | [] => none
  | i :: rest =>
    (s.lanesOf i).first.map fun l =>
      { choice := { station := i, lane := l, kind := .poll }, sel := { s.sel with poll := rest } }

/-- The prompt step (R109). -/
def State.promptStep (s : State) : Option Picked :=
  if 0 < s.sel.promptBudget then
    (s.sel.prompt.find? fun i => !(s.station i).held).map fun i =>
      { choice := { station := i, lane := .prompt, kind := .prompt }
        sel := { s.sel with prompt := s.sel.prompt.erase i ++ [i] } }
  else none

/-- A station that the fair pass, or the spill pass with its own balance test, would choose (R110, R111). -/
def State.passes (s : State) (above : Int) (i : Nat) : Bool :=
  !(s.station i).held && decide (above < (s.station i).balance) && s.cohortGate i
    && (s.lanesOf i).first.isSome

/-- One scan of the ring from the cursor for a balance above `above` (R110, R111). -/
def State.scan (s : State) (above : Int) (kind : Kind) : Option Picked :=
  (s.sel.active.find? (s.passes above)).bind fun i =>
    (s.lanesOf i).first.map fun l =>
      { choice := { station := i, lane := l, kind := kind }
        sel := { s.sel with active := rotatePast s.sel.active i } }

/-- The fair pass (R110). -/
def State.fairPass (s : State) : Option Picked :=
  s.scan 0 .fair

/-- The spill pass (R111). -/
def State.spillPass (s : State) : Option Picked :=
  if s.mod.config.spill then s.scan (-(s.mod.config.debtLimitUs : Int)) .spill else none

/-- The five steps in order; the first that finds a candidate makes the choice (R106). -/
def State.pick (s : State) : Option Picked :=
  s.groupStep <|> s.pollStep <|> s.promptStep <|> s.fairPass <|> s.spillPass

/-- Whether a cause starts a run (R104). -/
def State.selectionOpen (s : State) : Bool :=
  s.mod.mode == .running && decide (s.ord.outstanding.length < s.mod.config.window)

/-- A cause reaches SEL: if the mode is RUNNING and the window has room, a run makes its choice and hands it to ORD
(R104, R106). The build is the next event (ORDER_BUILD). -/
def State.selectionRun (s : State) : State :=
  if s.selectionOpen then
    match s.pick with
    | none => s
    | some p => s.updSel fun _ => { p.sel with choice := some p.choice }
  else s

end Sys2Proof.Machine
end

