-- ==== Sys2Proof/Machine/Orders.lean ====
section
/-!
DEFINITION. ORD's shared operations: ids and quarantine (R119, R134), the build and issue of an order (R120 to
R123), the following-through of a choice (R105, R106), conclusions (R125 to R131), cancellation (R137, R138).
-/

namespace Sys2Proof.Machine

/-- ORD's counters change. -/
def State.countOrd (s : State) (f : OrdCounters → OrdCounters) : State :=
  s.updOrd fun o => { o with counters := f o.counters }

/-! ## Ids (R119) and quarantine (R134) -/

/-- An id that allocation skips (R119). -/
def Ord.idTaken (o : Ord) (id : OrderId) : Bool :=
  o.outstanding.any (fun x => x.id == id) || decide (id ∈ o.quarantine)

/-- The first id from the next id on, in ascending order and wrapping, that is on neither list (R119). -/
def Ord.allocate (o : Ord) : OrderId :=
  (((List.range 256).map fun k => o.nextId + BitVec.ofNat 8 k).find? fun id => !o.idTaken id).getD o.nextId

/-- An id joins the tail of the quarantine list; a full list first evicts the id at its head (R134). -/
def State.quarantineId (s : State) (id : OrderId) : State :=
  if Config.quarantineIds ≤ s.ord.quarantine.length then
    (s.updOrd fun o => { o with quarantine := o.quarantine.drop 1 ++ [id] }).countOrd
      fun c => { c with quarantineEvictions := satAdd c.quarantineEvictions 1 }
  else s.updOrd fun o => { o with quarantine := o.quarantine ++ [id] }

/-- The record leaves the outstanding list from whatever position it holds; a held TX_ORDER goes with it (R118, R123). -/
def State.removeOrder (s : State) (id : OrderId) : State :=
  s.updOrd fun o => { o with outstanding := o.outstanding.filter fun x => x.id != id }

/-! ## Building and issuing (R120 to R123) -/

/-- The rate in use for a station's order: its estimate, or group_rate for station 0 (R48). -/
def State.orderRate (s : State) (i : Nat) : Nat :=
  if i = 0 then s.mod.config.groupRate else (s.station i).rate

/-- The frame limit of a kind (R120). -/
def frameLimit (cfg : Configuration) (k : Kind) : Nat :=
  if k = .poll then 1 else cfg.orderMaxFrames

/-- Candidates behind those taken join while the three tests of R120 hold. -/
def extendOrder (cfg : Configuration) (rate limit : Nat) : List Frame → List Frame → List Frame
  | taken, [] => taken
  | taken, f :: rest =>
    if taken.length < limit ∧ estimate cfg rate (taken ++ [f]) ≤ cfg.orderMaxUs
        ∧ (taken ++ [f]).all (fun g => !g.noAgg) = true then
      extendOrder cfg rate limit (taken ++ [f]) rest
    else taken

/-- The head entries an order takes from a lane: the first always, the others under R120. -/
def aggregate (cfg : Configuration) (rate limit : Nat) (lane : List Frame) : List Frame :=
  match lane with
  | [] => []
  | f :: rest => extendOrder cfg rate limit [f] rest

/-- The charges of an issue to the selector budget of the kind, and to prompt_used (R62, R78). -/
def State.chargeSelector (s : State) (k : Kind) (est : Nat) : State :=
  match k with
  | .prompt =>
    (s.updSel fun e => { e with promptBudget := chargeBudget e.promptBudget est }).updRck
      fun r => { r with promptUsed := satAdd r.promptUsed est }
  | .group => s.setGroupBudget (chargeBudget s.sel.groupBudget est)
  | .poll | .fair | .spill => s

/-- The record of an order as it is written at issue (R118, R122). -/
def State.orderRecord (s : State) (c : Choice) (frames : List Frame) (est : Nat) (cohort : Option Nat) : Order where
  id := s.ord.allocate
  station := c.station
  lane := c.lane
  kind := c.kind
  frames := frames
  est := est
  issueTime := s.rck.deviceTime
  deadline := deadlineAfter s.rck.deviceTime (s.mod.config.orderTimeoutMs * 1000)
  cohort := cohort
  round := s.rck.round
  promptPeriod := s.rck.promptPeriod
  sent := .waiting

/-- ORD issues an order of these frames (R122): the take, the charges, in_flight, the record, the TX_ORDER. -/
def State.issueOrder (s : State) (c : Choice) (frames : List Frame) : State :=
  let est := estimate s.mod.config (s.orderRate c.station) frames
  let cohort := (s.station c.station).cohort
  let o := s.orderRecord c frames est cohort
  let t := s.takeFrames c.station c.lane frames.length
  let t := ((t.chargeStation c.station est).chargeCohort cohort est).chargeSelector c.kind est
  let t := t.raiseInFlight c.station
  let t := t.updOrd fun d => { d with outstanding := d.outstanding ++ [o], nextId := o.id + 1 }
  (t.countOrd fun n => { n with ordersIssued := satAdd n.ordersIssued 1 }).serveOrders

/-- ORD finds the chosen lane empty and issues no order (R121). -/
def State.emptyChoice (s : State) (c : Choice) : State :=
  let t := s.countOrd fun n => { n with ordersEmpty := satAdd n.ordersEmpty 1 }
  if c.kind = .poll then t.formPollEmpty c.station else t

/-- ORD builds the order of a choice (R120 to R122). -/
def State.buildChoice (s : State) (c : Choice) : State :=
  match aggregate s.mod.config (s.orderRate c.station) (frameLimit s.mod.config c.kind) (s.lane c.station c.lane) with
  | [] => s.emptyChoice c
  | fs => s.issueOrder c fs

/-- The choice is built, and the next run follows at once (R105, R106, R121). -/
def State.buildOrder (s : State) : State :=
  match s.sel.choice with
  | none => s
  | some c => ((s.updSel fun e => { e with choice := none }).buildChoice c).selectionRun

/-- Up to `n` builds, each with the run that follows it. -/
def State.buildOrders : Nat → State → State
  | 0, s => s
  | n + 1, s => if s.sel.choice.isSome then State.buildOrders n s.buildOrder else s

/-- A choice and the runs that follow it are followed through before another event is taken, because no event but an
expiry of the chosen lane comes between a choice and its build (R105, R106, log entry 5). The window is at most 4, so
at most five builds follow one another. -/
def State.settle (s : State) : State :=
  (State.buildOrders 8 s).updSel fun e => { e with choice := none }

/-! ## Conclusions (R125 to R131) -/

/-- What becomes of a frame that was not delivered: none where it is requeued (R126, R131). -/
def frameFate (cfg : Configuration) (leaving : Bool) (now : Time) (lostAs : FrameResult) (f : Frame) :
    Option FrameResult :=
  if leaving then some lostAs
  else if deadlinePassed now f.deadline then some .expired
  else if f.requeues < cfg.requeueMax then none
  else some lostAs

/-- The undelivered frames of a concluded order are requeued together at the head of their lane, or returned in
ascending order position (R126, R131). -/
def State.concludeFrames (s : State) (o : Order) (lostAs : FrameResult) (fs : List Frame) : State :=
  let leaving : Bool := (s.station o.station).state == .leaving
  let fate := frameFate s.mod.config leaving s.rck.deviceTime lostAs
  (s.requeueFrames o.station o.lane (fs.filter fun f => (fate f).isNone)).returnFrames
    (fs.filterMap fun f => (fate f).map fun r => { frame := f, result := r })

/-- The correction of the selector budget of the order's kind, and of prompt_used (R65, R78). -/
def State.correctSelector (s : State) (o : Order) (d : Int) : State :=
  match o.kind with
  | .prompt =>
    let t :=
      if o.promptPeriod = s.rck.promptPeriod then
        s.updSel fun e => { e with promptBudget := correctBudget e.promptBudget d e.promptAllot }
      else s
    t.updRck fun r => { r with promptUsed := satCorrect r.promptUsed d }
  | .group =>
    if o.round = s.rck.round then s.setGroupBudget (correctBudget s.sel.groupBudget d s.sel.groupAllot)
    else s
  | .poll | .fair | .spill => s

/-- Step 1 of R125: the correction d = est − a on every account the order drew on (R63 to R65, R78). -/
def State.applyCorrection (s : State) (o : Order) (d : Int) : State :=
  ((s.correctStation o.station d).correctCohort o d).correctSelector o d

/-- The frames a delivered map marks, and those it does not, in order position (R125, R194); with a frame count that
differs from the order's, none is delivered (R127). -/
def splitFrames (o : Order) (x : Outcome) : List Frame × List Frame :=
  if x.frameCount = o.frames.length then
    let marked := o.frames.zipIdx
    ((marked.filter fun p => x.deliveredMap.getLsbD p.2).map Prod.fst,
      (marked.filter fun p => !x.deliveredMap.getLsbD p.2).map Prod.fst)
  else ([], o.frames)

/-- The attempts value bounded to 1..32 (R124). -/
def boundAttempts (n : Nat) : Nat :=
  clampNat 1 32 n

/-- The counters of an accepted outcome (R125, R127, R141). -/
def OrdCounters.accepted (c : OrdCounters) (o : Order) (x : Outcome) : OrdCounters :=
  { c with
    outcomesAccepted := satAdd c.outcomesAccepted 1
    retries := satAdd c.retries (boundAttempts x.attempts - 1)
    countMismatches :=
      if x.frameCount = o.frames.length then c.countMismatches else satAdd c.countMismatches 1 }

/-- An accepted outcome up to the report of the freed slot: steps 1 to 8 of R125. -/
def State.acceptOutcome (s : State) (o : Order) (x : Outcome) : State :=
  let t := (s.applyCorrection o ((o.est : Int) - x.airtime)).updateRate o.station x.finalRate
  let (done, undone) := splitFrames o x
  let t := (t.returnFrames (withResult done .delivered)).concludeFrames o .failed undone
  let t := (t.countFrames o.station done.length undone.length).lowerInFlight o.station
  let t := (t.removeOrder o.id).updOrd fun d => { d with lossCount := 0 }
  t.countOrd fun c => c.accepted o x

/-- A late outcome (R135). -/
def State.lateOutcome (s : State) (id : OrderId) : State :=
  (s.updOrd fun o => { o with quarantine := o.quarantine.erase id }).countOrd
    fun c => { c with lateOutcomes := satAdd c.lateOutcomes 1 }

/-- An unmatched outcome (R136). -/
def State.unmatchedOutcome (s : State) : State :=
  s.countOrd fun c => { c with unmatchedOutcomes := satAdd c.unmatchedOutcomes 1 }

/-- A timeout up to the loss count: steps 1 to 4 of R131, R133 without the LINK request. -/
def State.loseOrder (s : State) (o : Order) : State :=
  let t := (s.removeOrder o.id).quarantineId o.id
  let t := t.concludeFrames o .lost o.frames
  let t := (t.countLost o.station o.frames.length).lowerInFlight o.station
  let t := t.updOrd fun d => { d with lossCount := min (d.lossCount + 1) Config.lossMax }
  t.countOrd fun c => { c with timeouts := satAdd c.timeouts 1 }

/-- The oldest outstanding order whose deadline has passed (R131). -/
def State.timeoutDue (s : State) : Option Order :=
  s.ord.outstanding.find? fun o => passed s.rck.deviceTime o.deadline

/-! ## Cancellation (R137, R138) -/

/-- One order is cancelled (R137). -/
def State.cancelOrder (s : State) (o : Order) : State :=
  let t := (s.removeOrder o.id).quarantineId o.id
  let t := (t.returnFrames (withResult o.frames .aborted)).lowerInFlight o.station
  t.countOrd fun c => { c with ordersCancelled := satAdd c.ordersCancelled 1 }

/-- Every outstanding order is cancelled in issue order, and a CANCEL_ALL is requested (R137). -/
def State.cancelOrders (s : State) : State :=
  (s.ord.outstanding.foldl State.cancelOrder s).requestCancelAll

/-- ORD's part of a soft reset (R138). -/
def State.softResetOrders (s : State) : State :=
  (s.updOrd fun o => { o with quarantine := [] }).cancelOrders.updOrd
    fun o => { o with lossCount := 0, counters := .zero }

end Sys2Proof.Machine
end

