-- ==== Sys2Proof/Machine/Modes.lean ====
section
/-!
DEFINITION. MOD's and MGD's shared operations: the quiet-cause set and the modes it decides (R151, R154), the LINK
raise (R152), blanking (R145), the entry to READY and the end of a drain (R82, R165).
-/

namespace Sys2Proof.Machine

/-- The quiet-cause set becomes `q`. A change, and only a change, sets pending-alert (R151); it takes RUNNING to QUIET
or QUIET to RUNNING, and the entry to RUNNING is a cause for a selection run (R154). -/
def State.setCauses (s : State) (q : QuietCauses) : State :=
  if q = s.mod.causes then s
  else
    let t := (s.updMod fun m => { m with causes := q }).setPendingAlert
    match s.mod.mode with
    | .running => if q.isEmpty then t else t.setMode .quiet
    | .quiet => if q.isEmpty then (t.setMode .running).selectionRun else t
    | .halted | .ready | .draining => t

/-- ORD asks MGD to raise LINK (R152). -/
def State.raiseLink (s : State) : State :=
  if s.mod.causes.link then s
  else
    (s.updMgd fun g => { g with linkRaises := satAdd g.linkRaises 1 }).setCauses
      { s.mod.causes with link := true }

/-- A timeout that leaves the loss count at or above loss_limit asks for LINK (R133). -/
def State.requestLink (s : State) : State :=
  if s.mod.config.lossLimit ≤ s.ord.lossCount then s.raiseLink else s

/-- Blanking is restarted (R145). -/
def State.restartBlanking (s : State) : State :=
  s.updMgd fun g =>
    { g with
      blanking :=
        if s.mod.config.blankMs = 0 then none
        else some (deadlineAfter s.rck.deviceTime (s.mod.config.blankMs * 1000)) }

/-- The round offset: 0 while the round clock is stopped, and never above round_us − 1, which an alert captures that is
taken before a boundary already due (R71, R148, log entry 28). -/
def State.roundOffset (s : State) : Nat :=
  if s.rck.clocksRunning then min (s.rck.deviceTime - s.rck.lastRoundAt).toNat (s.mod.config.roundUs - 1) else 0

/-- The round and prompt clocks stop (R82); the next boundary times stand until START (log entry 31). -/
def State.stopClocks (s : State) : State :=
  s.updRck fun r => { r with clocksRunning := false }

/-- The clocks stop, staged changes are applied, and the mode becomes READY (R165, R166). -/
def State.enterReady (s : State) : State :=
  ((s.stopClocks.applyStagedStations).applyStagedCohorts).setMode .ready

/-- ORD reports an outstanding list that has become empty: in DRAINING the drain ends (R165). -/
def State.reportEmpty (s : State) : State :=
  if s.mod.mode = .draining ∧ s.ord.outstanding = [] then s.enterReady else s

end Sys2Proof.Machine
end

