-- ==== Sys2Proof/Machine/Rounds.lean ====
section
/-!
DEFINITION. RCK's shared operations: the closing of a round with its USAGE_REPORT (R79 to R81), the forming of a
round (R53 to R59, R72, R89) and of a prompt period (R60, R76).
-/

namespace Sys2Proof.Machine

/-- The USAGE_REPORT of the round that ends (R80). -/
def State.usageReport (s : State) : UsageReport where
  round := s.rck.round
  usable := s.rck.figures.usable
  freePm := s.rck.figures.freePm
  groupUsed := (s.station 0).usedRound
  promptUsed := s.rck.promptUsed
  activeLength := s.rck.figures.activeLength
  weightSum := s.rck.figures.weightSum
  quantaSum := s.rck.figures.quantaSum
  totalCharged := min (s.stt.stations.rows.map Station.usedRound).sum Config.counterMax
  skipped := s.rck.skipped
  cohorts := s.cohortUsage

/-- A due report is placed if 2 slots are free, and otherwise skipped and counted (R79, R81). -/
def State.placeReport (s : State) : State :=
  if 2 ≤ s.outFree then
    (s.pushOut (.usageReport s.usageReport)).updRck fun r =>
      { r with reportsSent := satAdd r.reportsSent 1, skipped := 0 }
  else
    s.updRck fun r =>
      { r with skipped := satAdd r.skipped 1, reportsSkipped := satAdd r.reportsSkipped 1 }

/-- The round that has ended is closed: the postscaler advances, and a due report is placed or skipped (R72 step 1,
R79). -/
def State.closeRound (s : State) : State :=
  if s.mod.config.reportEvery = 0 then s
  else if s.mod.config.reportEvery ≤ s.rck.postscaler + 1 then
    (s.updRck fun r => { r with postscaler := 0 }).placeReport
  else s.updRck fun r => { r with postscaler := r.postscaler + 1 }

/-- The free share a boundary samples (R53). -/
def State.sampleFree (s : State) : Nat :=
  freePm s.mod.config s.mgd.freeNow

/-- The figures of the new round are formed (R54 to R57) and kept (R72 step 5), the accounts and cohorts refilled
(R19, R89), the group budget reset and the group-due flag set (R58, R101). -/
def State.formFigures (s : State) : State :=
  let pm := s.sampleFree
  let usable := usableAirtime s.mod.config pm
  let group := groupAllotment s.mod.config usable
  let pool := poolOf s.mod.config usable
  let figures : RoundFigures :=
    { freePm := pm
      usable := usable
      activeLength := s.sel.active.length
      weightSum := s.weightSum
      quantaSum := s.quantaSum pool }
  (((s.refillStations pool).refillCohorts usable).updSel fun e =>
      { e with groupAllot := group, groupBudget := (group : Nat), groupDue := true }).updRck
    fun r => { r with figures := figures, promptUsed := 0 }

/-- A round begins: the per-round figures are set to 0, staged changes are applied, the figures are formed (R72 steps
3 to 5, R19, R89). -/
def State.beginRound (s : State) : State :=
  (s.clearStationUsage.clearCohortUsage.applyStagedStations).applyStagedCohorts.formFigures

/-- A prompt period begins: the prompt allotment is formed from the sample and the prompt budget set to it (R60, R76). -/
def State.beginPromptPeriod (s : State) : State :=
  let allot := promptAllotment s.mod.config s.sampleFree
  s.updSel fun e => { e with promptAllot := allot, promptBudget := (allot : Nat) }

/-- Round boundary 0 and prompt boundary 0, made by START (R70, R73 to R76, R79). -/
def State.boundaryZero (s : State) : State :=
  let now := s.rck.deviceTime
  (s.updRck fun r =>
    { r with
      clocksRunning := true
      round := 0
      lastRoundAt := now
      nextRoundAt := deadlineAfter now s.mod.config.roundUs
      promptPeriod := 0
      nextPromptAt := deadlineAfter now s.mod.config.promptPeriodUs
      postscaler := 0 }).beginRound.beginPromptPeriod

/-- The round number advances and the next boundary is set from the scheduled time of this one (R70, R72 step 2). -/
def State.advanceRound (s : State) : State :=
  s.updRck fun r =>
    { r with
      round := r.round + 1
      lastRoundAt := r.nextRoundAt
      nextRoundAt := deadlineAfter r.nextRoundAt s.mod.config.roundUs }

/-- The prompt period number advances and the next prompt boundary is set from the scheduled time `at_` (R74, R75, R76). -/
def State.advancePrompt (s : State) (at_ : Time) : State :=
  s.updRck fun r =>
    { r with
      promptPeriod := r.promptPeriod + 1
      nextPromptAt := deadlineAfter at_ s.mod.config.promptPeriodUs }

/-- A round boundary's time has come (R70). -/
def State.roundDue (s : State) : Bool :=
  s.rck.clocksRunning && passed s.rck.deviceTime s.rck.nextRoundAt

/-- A prompt boundary's time has come. With prompt_sync = 1 one that would fall at or after the next round boundary is
not made (R74, R75). -/
def State.promptDue (s : State) : Bool :=
  s.rck.clocksRunning && passed s.rck.deviceTime s.rck.nextPromptAt
    && (!s.mod.config.promptSync || decide (0 < (s.rck.nextRoundAt - s.rck.nextPromptAt).toInt))

/-- A round boundary after boundary 0 (R72); with prompt_sync = 1 it is also a prompt boundary (R74). -/
def State.makeRoundBoundary (s : State) : State :=
  let scheduled := s.rck.nextRoundAt
  let t := s.closeRound.advanceRound.beginRound
  let t := if s.mod.config.promptSync then (t.advancePrompt scheduled).beginPromptPeriod else t
  t.selectionRun

/-- A prompt boundary of its own (R76). -/
def State.makePromptBoundary (s : State) : State :=
  ((s.advancePrompt s.rck.nextPromptAt).beginPromptPeriod).selectionRun

end Sys2Proof.Machine
end

