-- ==== Sys2Proof/Machine/Wire.lean ====
section
/-!
DEFINITION. The bytes of the records the part sends: headers (R188), little-endian and signed fields (R189),
enumeration codes (R191), replies and QUERY entries (R192), notices (R193), Radio Link records (R194).
-/

namespace Sys2Proof.Machine

/-! ## Fields -/

/-- `n` in `size` bytes, least significant first (R189). -/
def leBytes : Nat → Nat → List Byte
  | 0, _ => []
  | size + 1, n => BitVec.ofNat 8 n :: leBytes size (n / 256)

/-- A signed four-byte field in two's complement (R189). -/
def signed32 (x : Int) : List Byte :=
  leBytes 4 (BitVec.ofInt 32 x).toNat

/-- A reserved byte, sent as 0 (R189). -/
def reserved : Byte := 0

/-- One bit of a flag byte. -/
def bitIf (b : Bool) (position : Nat) : Nat :=
  if b then 2 ^ position else 0

/-- A byte that says yes or no: 1 for yes and 0 for no, which R192 does not give (log entry 33). -/
def yesNo (b : Bool) : Nat :=
  if b then 1 else 0

/-! ## Enumeration codes (R191, R189) -/

def Mode.code : Mode → Nat
  | .halted => 0 | .ready => 1 | .running => 2 | .quiet => 3 | .draining => 4

def QuietCauses.code (q : QuietCauses) : Nat :=
  bitIf q.medium 0 + bitIf q.link 1 + bitIf q.host 2

def StationState.code : StationState → Nat
  | .vacant => 0 | .idle => 1 | .backlogged => 2 | .dozing => 3 | .leaving => 4

def Lane.code : Lane → Nat
  | .prompt => 0 | .bulk => 1 | .slack => 2

def Kind.code : Kind → Nat
  | .group => 0 | .poll => 1 | .prompt => 2 | .fair => 3 | .spill => 4

def FrameResult.code : FrameResult → Nat
  | .delivered => 1 | .failed => 2 | .expired => 3 | .flushed => 4 | .released => 5 | .aborted => 6 | .lost => 7

def AlertCause.code : AlertCause → Nat
  | .none => 0 | .vacate => 1 | .interference => 2 | .switch => 3 | .other => 4

def Sent.code : Sent → Nat
  | .waiting => 0 | .placed => 1

def ReplyCode.code : ReplyCode → Nat
  | .ok => 0 | .badState => 1 | .badRange => 2 | .badLength => 3 | .unknownType => 4 | .full => 5 | .notAdmitted => 6

/-- A cohort of none is 255 (R189). -/
def cohortCode (c : Option Nat) : Nat :=
  c.getD 255

/-- An empty cursor is 65,535 (R189). -/
def cursorCode (c : Option Nat) : Nat :=
  c.getD 65535

/-! ## QUERY entries and summaries (R192) -/

def StationRow.bytes (r : StationRow) : List Byte :=
  let x := r.station
  leBytes 2 r.index ++ leBytes 1 x.state.code
    ++ leBytes 1 (bitIf x.held 0 + bitIf x.stagedWeight.isSome 1 + bitIf x.stagedHold.isSome 2
        + bitIf (x.stagedHold.getD false) 3)
    ++ leBytes 6 x.address.toNat ++ leBytes 1 x.weight ++ leBytes 1 (x.stagedWeight.getD 0)
    ++ leBytes 2 x.rate ++ signed32 x.balance ++ leBytes 4 x.quantum ++ leBytes 2 x.cap
    ++ leBytes 1 (cohortCode x.cohort) ++ leBytes 1 x.inFlight ++ leBytes 4 x.usedRound
    ++ leBytes 4 x.delivered ++ leBytes 4 x.failed
    ++ leBytes 2 r.promptQueued ++ leBytes 2 r.bulkQueued ++ leBytes 2 r.slackQueued

def CohortRow.bytes (r : CohortRow) : List Byte :=
  let x := r.cohort
  leBytes 1 r.number
    ++ leBytes 1 (bitIf (decide (x.span ≠ 0)) 0 + bitIf x.stagedSpan.isSome 1 + bitIf x.stagedCapPm.isSome 2)
    ++ leBytes 2 x.span ++ leBytes 2 r.firstIndex ++ leBytes 2 r.lastIndex ++ leBytes 2 x.capPm
    ++ leBytes 2 (x.stagedSpan.getD 0) ++ leBytes 2 (x.stagedCapPm.getD 0)
    ++ leBytes 4 x.allot ++ signed32 x.budget ++ leBytes 4 x.usedRound

def ActiveSummary.bytes (a : ActiveSummary) : List Byte :=
  leBytes 2 (cursorCode a.cursor) ++ leBytes 2 a.activeLength ++ leBytes 2 a.promptLength
    ++ leBytes 2 a.pollLength ++ leBytes 1 (yesNo a.groupDue) ++ [reserved]
    ++ signed32 a.groupBudget ++ signed32 a.promptBudget

def ActiveRow.bytes (r : ActiveRow) : List Byte :=
  leBytes 2 r.station ++ leBytes 1 (bitIf r.onPrompt 0) ++ [reserved]

def OutstandingSummary.bytes (a : OutstandingSummary) : List Byte :=
  leBytes 1 a.count ++ leBytes 1 a.window ++ leBytes 1 a.nextId.toNat ++ leBytes 1 a.lossCount
    ++ leBytes 1 (yesNo a.cancelPending) ++ [reserved]

def OutstandingRow.bytes (r : OutstandingRow) : List Byte :=
  leBytes 1 r.id.toNat ++ leBytes 1 r.lane.code ++ leBytes 2 r.station ++ leBytes 1 r.kind.code
    ++ leBytes 1 r.frameCount ++ leBytes 2 r.est ++ leBytes 4 r.round.toNat
    ++ leBytes 4 r.promptPeriod.toNat ++ leBytes 1 (cohortCode r.cohort) ++ leBytes 1 r.sent.code
    ++ [reserved, reserved] ++ leBytes 4 r.timeToDeadline.toNat

/-- The table code of a QUERY reply (R191). -/
def QueryBody.tableCode : QueryBody → Nat
  | .station _ => 0 | .cohort _ => 1 | .counters _ => 2 | .activeList _ _ => 3 | .outstanding _ _ => 4
  | .quarantine _ _ => 5

/-- How many entries a QUERY reply returns. -/
def QueryBody.entryCount : QueryBody → Nat
  | .station es => es.length
  | .cohort es => es.length
  | .counters es => es.length
  | .activeList _ es => es.length
  | .outstanding _ es => es.length
  | .quarantine _ es => es.length

/-- The summary and the entries of a QUERY reply (R192). -/
def QueryBody.bytes : QueryBody → List Byte
  | .station es => es.flatMap StationRow.bytes
  | .cohort es => es.flatMap CohortRow.bytes
  | .counters es => es.flatMap (leBytes 4)
  | .activeList summary es => summary.bytes ++ es.flatMap ActiveRow.bytes
  | .outstanding summary es => summary.bytes ++ es.flatMap OutstandingRow.bytes
  | .quarantine count es => leBytes 1 count ++ [reserved] ++ es.flatMap fun i => leBytes 1 i.toNat

/-! ## Replies and notices -/

def StatusBody.bytes (b : StatusBody) : List Byte :=
  leBytes 1 b.mode.code ++ leBytes 1 b.causes.code ++ leBytes 1 (yesNo b.configValid)
    ++ leBytes 2 b.freeEntries ++ leBytes 2 b.returnLength ++ leBytes 2 b.activeLength
    ++ leBytes 1 b.outstandingCount ++ [reserved] ++ leBytes 4 b.round.toNat ++ leBytes 2 b.freeNow

/-- A reply body: the reply code, then what the command's reply carries (R192). -/
def Reply.bytes : Reply → List Byte
  | .code c => leBytes 1 c.code
  | .enqueue results =>
    leBytes 1 ReplyCode.ok.code ++ leBytes 1 results.length ++ results.flatMap fun c => leBytes 1 c.code
  | .flush count => leBytes 1 ReplyCode.ok.code ++ leBytes 2 count
  | .status body => leBytes 1 ReplyCode.ok.code ++ body.bytes
  | .query start body =>
    leBytes 1 ReplyCode.ok.code ++ leBytes 1 body.tableCode ++ leBytes 2 start
      ++ leBytes 2 body.entryCount ++ body.bytes

/-- A USAGE_REPORT body (R193). -/
def UsageReport.bytes (r : UsageReport) : List Byte :=
  leBytes 4 r.round.toNat ++ leBytes 4 r.usable ++ leBytes 2 r.freePm ++ leBytes 2 r.activeLength
    ++ leBytes 4 r.groupUsed ++ leBytes 4 r.promptUsed ++ leBytes 2 r.weightSum
    ++ [reserved, reserved] ++ leBytes 4 r.quantaSum ++ leBytes 4 r.totalCharged
    ++ leBytes 4 r.skipped ++ leBytes 1 r.cohorts.length ++ [reserved]
    ++ r.cohorts.flatMap fun p => leBytes 1 p.1 ++ leBytes 4 p.2

/-- A TOKEN_RETURN body (R193). -/
def tokenReturnBytes (es : List (Word32 × FrameResult)) : List Byte :=
  leBytes 1 es.length ++ [reserved] ++ es.flatMap fun e => leBytes 4 e.1.toNat ++ leBytes 1 e.2.code

/-- An ALERT body (R193). -/
def alertBytes (mode : Mode) (causes : QuietCauses) (c : Capture) : List Byte :=
  leBytes 1 mode.code ++ leBytes 1 causes.code ++ leBytes 4 c.time.toNat ++ leBytes 4 c.round.toNat
    ++ leBytes 4 c.offset ++ leBytes 1 c.cause.code ++ [reserved]

/-- A record: type, tag, body length, body (R188). -/
def frameRecord (typ tag : Byte) (body : List Byte) : List Byte :=
  typ :: tag :: (leBytes 2 body.length ++ body)

/-- The bytes of a record bound for the host (R188 to R193). -/
def OutRecord.bytes : OutRecord → List Byte
  | .reply typ tag r => frameRecord (typ + Config.replyOffset) tag r.bytes
  | .reject tag => frameRecord Config.typeReject tag (leBytes 1 ReplyCode.unknownType.code)
  | .tokenReturn es => frameRecord Config.typeTokenReturn 0 (tokenReturnBytes es)
  | .usageReport r => frameRecord Config.typeUsageReport 0 r.bytes
  | .alert m q c => frameRecord Config.typeAlert 0 (alertBytes m q c)

/-- The NONE marker: type NONE, tag 0, body length 0 (R175, R190). -/
def noneMarker : List Byte :=
  frameRecord 0 0 []

/-- What a READ returns from the byte after the direction byte on: the record fixed for it, or the NONE marker (R175). -/
def readBytes (record : Option OutRecord) : List Byte :=
  match record with
  | some r => r.bytes
  | none => noneMarker

/-! ## Records for the MAC (R194) -/

def TxOrder.bytes (o : TxOrder) : List Byte :=
  leBytes 1 o.id.toNat ++ leBytes 1 o.kind.code ++ leBytes 2 o.station ++ leBytes 1 o.lane.code
    ++ leBytes 1 o.frames.length ++ leBytes 2 o.est
    ++ o.frames.flatMap fun f => leBytes 4 f.1.toNat ++ leBytes 2 f.2

/-- The header and body bytes of a record for the MAC (R188, R194). -/
def RadioRecord.bytes : RadioRecord → List Byte
  | .bind i a => frameRecord Config.typeBind 0 (leBytes 2 i ++ leBytes 6 a.toNat)
  | .unbind i => frameRecord Config.typeUnbind 0 (leBytes 2 i)
  | .pollEmpty i => frameRecord Config.typePollEmpty 0 (leBytes 2 i)
  | .txOrder o => frameRecord Config.typeTxOrder 0 o.bytes
  | .cancelAll => frameRecord Config.typeCancelAll 0 []

/-- A record whole on the Radio Link: start-of-record symbol, data bytes, end-of-record symbol, behind which idle symbols
follow (R190). -/
def RadioRecord.symbols (r : RadioRecord) : List Symbol :=
  .startOfRecord :: (r.bytes.map .data ++ [.endOfRecord, .idle])

end Sys2Proof.Machine
end

