-- ==== Sys2Proof/Machine/ControlLink.lean ====
section
/-!
DEFINITION. The Control Link: transactions (R173 to R175, R190), the dispatch of the head command (R177), the
notices TOKEN_RETURN (R42) and ALERT (R170), and ATTN pulses (R179).
-/

namespace Sys2Proof.Machine

/-- While RESET_N is asserted every block holds its pin-reset values and takes nothing (R168). -/
def State.whenReleased (s : State) (f : State → State) : Host.Outcome State Fault Refusal :=
  .next (if s.resetN then s else f s)

/-! ## Transactions -/

/-- The bytes on CL_SDO in a transaction of which `n` bytes follow the direction byte: filler during the direction
byte, then the answer, then filler (R190). -/
def driven (answer : List Byte) (n : Nat) : List Byte :=
  Config.filler :: (answer ++ List.replicate n Config.filler).take n

/-- Bytes are clocked that the CLI takes nothing from, `n` of them after the first: while RESET_N is asserted, or in a
transaction that a pin reset has cut off. CL_SDO returns filler (R173, R187). -/
def State.returnFiller (s : State) (n : Nat) : State :=
  s.updCli fun c => { c with sdo := driven [] n }

/-- An event of a transaction in which `n` bytes follow the direction byte. While RESET_N is asserted the CLI takes no
transaction (R173). -/
def State.whenSelected (s : State) (n : Nat) (f : State → State) : Host.Outcome State Fault Refusal :=
  .next (if s.resetN then s.returnFiller n else f s)

/-- What a direction byte makes of the transaction, and what it fixes (R173 to R175). -/
def State.transactionFor (s : State) (b : Byte) : Transaction :=
  if b = Config.directionWrite then .write (decide (s.cli.inbound.length < Config.controlInbound))
  else if b = Config.directionRead then .read s.cli.outbound.head?
  else .idle

/-- The direction byte is taken (R173). A byte inside a transaction is no direction byte. -/
def State.takeDirection (s : State) (b : Byte) : State :=
  match s.cli.transaction with
  | some _ => s
  | none => s.updCli fun c => { c with transaction := some (s.transactionFor b), sdo := driven [] 0 }

/-- The answer to a WRITE (R174, R190). -/
def writeAnswer (ready : Bool) : Byte :=
  if ready then Config.answerReady else Config.answerNotReady

/-- The record of a READY WRITE joins the inbound queue, or is discarded and counted as short (R174). -/
def Cli.receive (c : Cli) (bytes : List Byte) : Cli :=
  match receivedRecord bytes with
  | none => { c with clShortRecords := satAdd c.clShortRecords 1 }
  | some r => { c with inbound := c.inbound ++ [r] }

/-- CL_SEL_N rises on a WRITE (R174), or on what a pin reset has left of one (R187). -/
def State.endWrite (s : State) (bytes : List Byte) : State :=
  match s.cli.transaction with
  | some (.write ready) =>
    s.updCli fun c =>
      { (if ready then c.receive bytes else c) with
        transaction := none
        sdo := driven [writeAnswer ready] bytes.length }
  | none => s.returnFiller bytes.length
  | _ => s

/-- CL_SEL_N rises on a READ: the head record leaves only if every byte of it was clocked out (R175). A READ that a pin
reset has cut off returns filler (R187). -/
def State.endRead (s : State) (clocked : Nat) : State :=
  match s.cli.transaction with
  | some (.read record) =>
    let bytes := readBytes record
    s.updCli fun c =>
      { c with
        transaction := none
        sdo := driven bytes clocked
        outbound := if record.isSome && decide (bytes.length ≤ clocked) then c.outbound.drop 1 else c.outbound }
  | none => s.returnFiller clocked
  | _ => s

/-- CL_SEL_N rises on an idle transaction (R173), or on what a pin reset has left of one (R187). -/
def State.endIdle (s : State) (clocked : Nat) : State :=
  match s.cli.transaction with
  | some .idle =>
    s.updCli fun c =>
      { c with
        transaction := none
        sdo := driven [] clocked
        clBadDirection := satAdd c.clBadDirection 1 }
  | none => s.returnFiller clocked
  | _ => s

/-- DIRECTION_BYTE. -/
def execDirectionByte (b : Byte) (s : State) : Host.Outcome State Fault Refusal :=
  s.whenSelected 0 fun s => s.takeDirection b

/-- WRITE_TRANSACTION. -/
def execWriteTransaction (bytes : List Byte) (s : State) : Host.Outcome State Fault Refusal :=
  s.whenSelected bytes.length fun s => s.endWrite bytes

/-- READ_TRANSACTION. -/
def execReadTransaction (clocked : Nat) (s : State) : Host.Outcome State Fault Refusal :=
  s.whenSelected clocked fun s => s.endRead clocked

/-- IDLE_TRANSACTION. -/
def execIdleTransaction (clocked : Nat) (s : State) : Host.Outcome State Fault Refusal :=
  s.whenSelected clocked fun s => s.endIdle clocked

/-! ## Dispatch (R177) -/

/-- The record at the head of the inbound queue is the CLI's to dispatch as what `wanted` says of its type: its reply
has a slot. -/
def State.dispatchable (s : State) (wanted : Byte → Bool) : Option HostRecord :=
  match s.cli.inbound with
  | [] => none
  | r :: _ => if wanted r.typ && decide (0 < s.outFree) then some r else none

/-- A type code names command `c`. -/
def names (c : Command) (typ : Byte) : Bool :=
  commandOf typ == some c

/-- A type code names no command (R177). -/
def namesNone (typ : Byte) : Bool :=
  (commandOf typ).isNone

/-- The head record leaves the inbound queue. -/
def State.popInbound (s : State) : State :=
  s.updCli fun c => { c with inbound := c.inbound.drop 1 }

/-- The CLI's own checks of a dispatched command's record (R177). -/
def HostRecord.lengthOk (r : HostRecord) (c : Command) : Bool :=
  !r.short && bodyLengthOk c r.body

/-- The command at the head is dispatched if it is `c`: it leaves the inbound queue, is answered BAD_LENGTH or decided
by its owner, and its reply enters the outbound queue (R177). Any choice is followed through first (R106). -/
def State.dispatch (s : State) (c : Command) (decision : State → List Byte → State × Reply) : State :=
  match s.dispatchable (names c) with
  | none => s
  | some r =>
    let t := s.settle.popInbound
    if r.lengthOk c then
      let (u, reply) := decision t r.body
      u.pushOut (.reply r.typ r.tag reply)
    else t.pushOut (.reply r.typ r.tag (.code .badLength))

/-- A head record whose type names no command is answered UNKNOWN_TYPE with a REJECT (R177, R189). -/
def State.rejectUnknown (s : State) : State :=
  match s.dispatchable namesNone with
  | none => s
  | some r => s.settle.popInbound.pushOut (.reject r.tag)

/-- UNKNOWN_TYPE. -/
def execUnknownType (s : State) : Host.Outcome State Fault Refusal :=
  s.whenReleased State.rejectUnknown

/-- A decision that refuses the command: nothing changes, and the reply carries the code alone (R177). -/
def refuse (s : State) (c : ReplyCode) : State × Reply :=
  (s, .code c)

/-- A decision whose reply carries OK alone. -/
def accept (s : State) : State × Reply :=
  (s, .code .ok)

/-! ## Notices and ATTN -/

/-- A TOKEN_RETURN can be formed (R42). -/
def State.tokenReturnDue (s : State) : Bool :=
  !s.fpl.returnList.isEmpty && decide (2 ≤ s.outFree)

/-- The first entries of the return list, up to 32, go into a TOKEN_RETURN and become FREE (R42). -/
def State.formTokenReturn (s : State) : State :=
  if s.tokenReturnDue then
    let carried := s.fpl.returnList.take Config.tokensPerReturn
    (s.pushOut (.tokenReturn (carried.map fun e => (e.frame.token, e.result)))).updFpl fun p =>
      { p with
        returnList := p.returnList.drop Config.tokensPerReturn
        freeEntries := p.freeEntries + carried.length
        tokenNotices := satAdd p.tokenNotices 1 }
  else s

/-- TOKEN_RETURN. -/
def execTokenReturn (s : State) : Host.Outcome State Fault Refusal :=
  s.whenReleased State.formTokenReturn

/-- An ALERT can be formed (R170). -/
def State.alertDue (s : State) : Bool :=
  s.mod.pendingAlert && decide (2 ≤ s.outFree)

/-- A pending ALERT is formed as the part stands, and the flag is cleared (R170). -/
def State.formAlert (s : State) : State :=
  if s.alertDue then
    (s.pushOut (.alert s.mod.mode s.mod.causes s.mgd.capture)).updMod fun m =>
      { m with pendingAlert := false, alertsSent := satAdd m.alertsSent 1 }
  else s

/-- ALERT. -/
def execAlert (s : State) : Host.Outcome State Fault Refusal :=
  s.whenReleased State.formAlert

/-- A pulse ends: the backlog falls by 1, and the next pulse begins while it stays above 0 (R179). -/
def State.endPulse (s : State) : State :=
  if s.pulseEnded then
    s.updCli fun c =>
      { c with
        backlog := c.backlog - 1
        pulse := if 1 < c.backlog then some s.rck.deviceTime else none }
  else s

/-- ATTN_PULSE. -/
def execAttnPulse (s : State) : Host.Outcome State Fault Refusal :=
  s.whenReleased State.endPulse

end Sys2Proof.Machine
end

