-- ==== Sys2Proof/Machine/Deadlines.lean ====
section
/-!
DEFINITION. The events that a deadline brings (FRAME_EXPIRY, ORDER_TIMEOUT, BLANKING_EXPIRY, ROUND_BOUNDARY,
PROMPT_BOUNDARY), the build of a choice (ORDER_BUILD), and the two edges of RESET_N.
-/

namespace Sys2Proof.Machine

/-! ## FRAME_EXPIRY -/

/-- An expiry that comes between a choice and its build: only of an entry of the chosen lane (R37, R106). -/
def State.expiryOfChoice (s : State) (r : ExpiryRef) : Bool :=
  match s.sel.choice with
  | none => true
  | some c => r.station == c.station && r.lane == c.lane

/-- The head of the expiry list expires if its deadline has passed (R36). -/
def State.expireDue (s : State) : State :=
  match s.expiryDue with
  | none => s
  | some r => s.expireFrame r

/-- An expiry is taken: at once where it reaches the chosen lane, and otherwise behind the build (R36, R37, R106). -/
def State.takeExpiry (s : State) : State :=
  match s.expiryDue with
  | none => s
  | some r => if s.expiryOfChoice r then s.expireFrame r else s.settle.expireDue

/-- FRAME_EXPIRY. -/
def execFrameExpiry (s : State) : Host.Outcome State Fault Refusal :=
  s.whenReleased State.takeExpiry

/-! ## ORDER_TIMEOUT -/

/-- A timeout whole: the loss, the LINK request, the freed slot, the end of a drain (R131, R133). -/
def State.timeOutOrder (s : State) (o : Order) : State :=
  (s.loseOrder o).requestLink.reportEmpty.selectionRun

/-- The oldest order whose deadline has passed times out (R131). -/
def State.takeTimeout (s : State) : State :=
  match s.timeoutDue with
  | none => s
  | some o => s.settle.timeOutOrder o

/-- ORDER_TIMEOUT. -/
def execOrderTimeout (s : State) : Host.Outcome State Fault Refusal :=
  s.whenReleased State.takeTimeout

/-! ## BLANKING_EXPIRY -/

/-- The blanking deadline has passed (R145). -/
def State.blankingDue (s : State) : Bool :=
  deadlinePassed s.rck.deviceTime s.mgd.blanking

/-- The blanking timer becomes STOPPED when its deadline has passed (R145). -/
def State.expireBlanking (s : State) : State :=
  if s.blankingDue then s.updMgd fun g => { g with blanking := none } else s

/-- BLANKING_EXPIRY. -/
def execBlankingExpiry (s : State) : Host.Outcome State Fault Refusal :=
  s.whenReleased State.expireBlanking

/-! ## ROUND_BOUNDARY and PROMPT_BOUNDARY -/

/-- A round boundary is made when its time has come (R70, R72). -/
def State.takeRoundBoundary (s : State) : State :=
  if s.roundDue then s.settle.makeRoundBoundary else s

/-- ROUND_BOUNDARY. -/
def execRoundBoundary (s : State) : Host.Outcome State Fault Refusal :=
  s.whenReleased State.takeRoundBoundary

/-- A prompt boundary is made when its time has come (R74 to R76). -/
def State.takePromptBoundary (s : State) : State :=
  if s.promptDue then s.settle.makePromptBoundary else s

/-- PROMPT_BOUNDARY. -/
def execPromptBoundary (s : State) : Host.Outcome State Fault Refusal :=
  s.whenReleased State.takePromptBoundary

/-! ## ORDER_BUILD -/

/-- ORDER_BUILD: the choice is built, and the next run follows (R105, R106, R120 to R123). -/
def execOrderBuild (s : State) : Host.Outcome State Fault Refusal :=
  s.whenReleased State.buildOrder

/-! ## RESET_N -/

/-- PIN_RESET: every block takes its pin-reset values, whatever the part was doing (R168 and the rules it names). The
queue of commands is the model's, not the part's. -/
def execPinReset (s : State) : Host.Outcome State Fault Refusal :=
  .next { State.pinResetValues true with pending := s.pending }

/-- RESET_N_RELEASE: the part takes records again (R168, R187). -/
def execResetNRelease (s : State) : Host.Outcome State Fault Refusal :=
  .next { s with resetN := false }

end Sys2Proof.Machine
end

