-- ==== Sys2Proof/Machine/HostModes.lean ====
section
/-!
DEFINITION. The commands that MOD takes: CONFIGURE, START, STOP, ABORT, RESET, QUIET, RESUME, STATUS (chapter 9,
R151).
-/

namespace Sys2Proof.Machine

/-! ## CONFIGURE -/

/-- Station 0 as the CONFIGURE that leaves HALTED makes it (R2). -/
def Station.groupStation (cfg : Configuration) (x : Station) : Station :=
  { x with
    state := .idle
    address := 0
    weight := 0
    rate := cfg.groupRate
    balance := 0
    quantum := 0
    cap := cfg.orderMaxUs }

/-- The configuration record is written and marked valid (R160). -/
def State.writeConfiguration (s : State) (cfg : Configuration) : State :=
  s.updMod fun m => { m with config := cfg, configValid := true }

/-- The part leaves HALTED: device time starts from 0, station 0 becomes IDLE, the mode becomes READY (R161, R68, R2).
medium_ignored keeps what it counted in HALTED (R156, R181, log entry 32). -/
def State.leaveHalted (s : State) : State :=
  ((s.updRck fun r => { r with deviceTime := 0, timeRunning := true }).updStation 0
    (Station.groupStation s.mod.config)).setMode .ready

/-- The decision of CONFIGURE (R160, R161). -/
def decideConfigure (s : State) (body : List Byte) : State × Reply :=
  let raw := parseConfigure body
  match s.mod.mode with
  | .running | .quiet | .draining => refuse s .badState
  | .halted | .ready =>
    if !raw.useDefaults && !raw.valid then refuse s .badRange
    else if s.fpl.freeEntries ≠ Config.frameEntries then refuse s .badState
    else
      let t := s.writeConfiguration raw.toConfiguration
      accept (if s.mod.mode = .halted then t.leaveHalted else t.reclampStations)

/-- CONFIGURE. The ATTN operation that the new record brings into force starts behind the command's own reply (R179). -/
def execConfigure (s : State) : Host.Outcome State Fault Refusal :=
  s.whenReleased fun s => (s.dispatch .configure decideConfigure).reformAttn s.mod.attnOperation

/-! ## START, STOP, ABORT -/

/-- The decision of START (R163). -/
def decideStart (s : State) (_ : List Byte) : State × Reply :=
  match s.mod.mode with
  | .ready =>
    let t := (s.updMgd fun g => { g with freeNow := s.mod.config.freeInitialPm }).boundaryZero
    accept (t.setMode (if s.mod.causes.isEmpty then .running else .quiet)).selectionRun
  | .halted | .running | .quiet | .draining => refuse s .badState

/-- START. -/
def execStart (s : State) : Host.Outcome State Fault Refusal :=
  s.whenReleased fun s => s.dispatch .start decideStart

/-- The decision of STOP (R164). -/
def decideStop (s : State) (_ : List Byte) : State × Reply :=
  match s.mod.mode with
  | .running | .quiet => accept (if s.ord.outstanding.isEmpty then s.enterReady else s.setMode .draining)
  | .halted | .ready | .draining => refuse s .badState

/-- STOP. -/
def execStop (s : State) : Host.Outcome State Fault Refusal :=
  s.whenReleased fun s => s.dispatch .stop decideStop

/-- The decision of ABORT (R166). -/
def decideAbort (s : State) (_ : List Byte) : State × Reply :=
  match s.mod.mode with
  | .running | .quiet | .draining => accept s.cancelOrders.enterReady
  | .halted | .ready => refuse s .badState

/-- ABORT. -/
def execAbort (s : State) : Host.Outcome State Fault Refusal :=
  s.whenReleased fun s => s.dispatch .abort decideAbort

/-! ## RESET -/

/-- FPL's counters become 0 (R46, R44). -/
def State.clearFplCounters (s : State) : State :=
  s.updFpl fun p =>
    { p with framesAccepted := 0, framesRefused := 0, framesRequeued := 0, framesExpired := 0, tokenNotices := 0 }

/-- SEL empties its lists and clears the group-due flag; the budgets and allotments stay (R116). -/
def State.clearSelectorLists (s : State) : State :=
  s.updSel fun e => { e with active := [], prompt := [], poll := [], groupDue := false }

/-- RCK's part of a soft reset (R83); the next boundary times stand until START (log entry 31). -/
def State.softResetClocks (s : State) : State :=
  s.updRck fun r =>
    { r with
      clocksRunning := false
      promptUsed := 0
      postscaler := 0
      skipped := 0
      reportsSent := 0
      reportsSkipped := 0 }

/-- MGD's counters become 0 (R156). -/
def State.clearMgdCounters (s : State) : State :=
  s.updMgd fun g =>
    { g with mediumAlerts := 0, mediumReports := 0, reportsBlanked := 0, linkRaises := 0, mediumIgnored := 0 }

/-- The four link counters become 0 (R181, R187). -/
def State.clearLinkCounters (s : State) : State :=
  (s.updCli fun c => { c with clShortRecords := 0, clBadDirection := 0 }).updRli
    fun r => { r with rlMalformed := 0, rlOverrun := 0 }

/-- MOD's part of a soft reset: the quiet-cause set empties and the mode becomes READY; pending-alert is set if either
changed (R167, R169), and alerts_sent becomes 0 (R170). -/
def State.softResetMode (s : State) : State :=
  let t := s.updMod fun m => { m with causes := .empty, alertsSent := 0 }
  (if s.mod.causes = .empty then t else t.setPendingAlert).setMode .ready

/-- The soft reset of every block once the orders are cancelled and the lanes flushed (R167). -/
def State.softResetBlocks (s : State) : State :=
  let t := s.softResetStations.clearSelectorLists.softResetCohorts.softResetClocks
  t.clearMgdCounters.clearFplCounters.clearLinkCounters.softResetMode

/-- The soft reset, block by block (R167). -/
def State.softReset (s : State) : State :=
  s.softResetOrders.flushAll.softResetBlocks

/-- The decision of RESET (R167). -/
def decideReset (s : State) (_ : List Byte) : State × Reply :=
  match s.mod.mode with
  | .halted => refuse s .badState
  | .ready | .running | .quiet | .draining => accept s.softReset

/-- RESET. -/
def execReset (s : State) : Host.Outcome State Fault Refusal :=
  s.whenReleased fun s => s.dispatch .reset decideReset

/-! ## QUIET, RESUME, STATUS -/

/-- The decision of QUIET (R151). -/
def decideQuiet (s : State) (_ : List Byte) : State × Reply :=
  match s.mod.mode with
  | .halted => refuse s .badState
  | .ready | .running | .quiet | .draining => accept (s.setCauses { s.mod.causes with host := true })

/-- QUIET. -/
def execQuiet (s : State) : Host.Outcome State Fault Refusal :=
  s.whenReleased fun s => s.dispatch .quiet decideQuiet

/-- The decision of RESUME (R151). -/
def decideResume (s : State) (_ : List Byte) : State × Reply :=
  match s.mod.mode with
  | .halted => refuse s .badState
  | .ready | .running | .quiet | .draining =>
    accept (s.setCauses { s.mod.causes with host := false, link := false })

/-- RESUME. -/
def execResume (s : State) : Host.Outcome State Fault Refusal :=
  s.whenReleased fun s => s.dispatch .resume decideResume

/-- The figures of a STATUS reply (R172). -/
def State.statusBody (s : State) : StatusBody where
  mode := s.mod.mode
  causes := s.mod.causes
  configValid := s.mod.configValid
  freeEntries := s.fpl.freeEntries
  returnLength := s.fpl.returnList.length
  activeLength := s.sel.active.length
  outstandingCount := s.ord.outstanding.length
  round := s.rck.round
  freeNow := s.mgd.freeNow

/-- The decision of STATUS (R172). -/
def decideStatus (s : State) (_ : List Byte) : State × Reply :=
  (s, .status s.statusBody)

/-- STATUS. -/
def execStatus (s : State) : Host.Outcome State Fault Refusal :=
  s.whenReleased fun s => s.dispatch .status decideStatus

end Sys2Proof.Machine
end

