-- ==== Sys2Proof/Machine/HostQuery.lean ====
section
/-!
DEFINITION. QUERY (R180, R181) and the tables it reads (R1, R93, R115, R140).
-/

namespace Sys2Proof.Machine

/-- The entries from `start`, at most `count` and at most `fit` (R180). -/
def window {α : Type} (entries : List α) (start count fit : Nat) : List α :=
  (entries.drop start).take (min count fit)

/-- How many entries of `size` bytes fit behind the fixed part of 6 bytes and the summary (R180, R192). -/
def fitting (summary size : Nat) : Nat :=
  (Config.maxBody - 6 - summary) / size

/-- One STATION entry (R1). -/
def State.stationRow (s : State) (i : Nat) : StationRow where
  index := i
  station := s.station i
  promptQueued := (s.lanesOf i).prompt.length
  bulkQueued := (s.lanesOf i).bulk.length
  slackQueued := (s.lanesOf i).slack.length

/-- One COHORT entry (R93): first and last index are both 0 when the cohort is disabled. -/
def State.cohortRow (s : State) (c : Nat) : CohortRow :=
  let range := (spanRange (s.cohort c).span).getD (0, 1)
  { number := c
    cohort := s.cohort c
    firstIndex := range.1
    lastIndex := range.1 + range.2 - 1 }

/-- The 28 counters in the order of R181. -/
def State.counters (s : State) : List Nat :=
  let c := s.ord.counters
  [s.stt.radioIgnored,
    s.fpl.framesAccepted, s.fpl.framesRefused, s.fpl.framesRequeued, s.fpl.framesExpired, s.fpl.tokenNotices,
    s.rck.reportsSent, s.rck.reportsSkipped,
    c.ordersIssued, c.ordersEmpty, c.outcomesAccepted, c.countMismatches, c.retries, c.timeouts,
    c.ordersCancelled, c.lateOutcomes, c.unmatchedOutcomes, c.quarantineEvictions,
    s.mgd.mediumAlerts, s.mgd.mediumReports, s.mgd.reportsBlanked, s.mgd.linkRaises, s.mgd.mediumIgnored,
    s.mod.alertsSent, s.cli.clShortRecords, s.cli.clBadDirection, s.rli.rlMalformed, s.rli.rlOverrun]

/-- The ACTIVE_LIST summary (R115). -/
def State.activeSummary (s : State) : ActiveSummary where
  cursor := s.sel.active.head?
  activeLength := s.sel.active.length
  promptLength := s.sel.prompt.length
  pollLength := s.sel.poll.length
  groupDue := s.sel.groupDue
  groupBudget := s.sel.groupBudget
  promptBudget := s.sel.promptBudget

/-- One ACTIVE_LIST entry (R115). -/
def State.activeRow (s : State) (i : Nat) : ActiveRow where
  station := i
  onPrompt := decide (i ∈ s.sel.prompt)

/-- The OUTSTANDING summary (R140). -/
def State.outstandingSummary (s : State) : OutstandingSummary where
  count := s.ord.outstanding.length
  window := s.mod.config.window
  nextId := s.ord.nextId
  lossCount := s.ord.lossCount
  cancelPending := s.ord.cancelPending

/-- One OUTSTANDING entry (R140). -/
def State.outstandingRow (s : State) (o : Order) : OutstandingRow where
  id := o.id
  lane := o.lane
  station := o.station
  kind := o.kind
  frameCount := o.frames.length
  est := o.est
  round := o.round
  promptPeriod := o.promptPeriod
  cohort := o.cohort
  sent := o.sent
  timeToDeadline := o.deadline - s.rck.deviceTime

/-- The highest start a table admits (R180). -/
def State.lastStart (s : State) (t : QueryTable) : Nat :=
  match t with
  | .station => 511
  | .cohort => 31
  | .counters => 27
  | .activeList => s.sel.active.length
  | .outstanding => s.ord.outstanding.length
  | .quarantine => s.ord.quarantine.length

/-- The summary and entries of a table from `start`, for `count` (R180, R192). -/
def State.readTable (s : State) (t : QueryTable) (start count : Nat) : QueryBody :=
  match t with
  | .station =>
    .station ((window (List.range Config.stationCount) start count (fitting 0 44)).map s.stationRow)
  | .cohort =>
    .cohort ((window (List.range Config.cohortCount) start count (fitting 0 26)).map s.cohortRow)
  | .counters => .counters (window s.counters start count (fitting 0 4))
  | .activeList =>
    .activeList s.activeSummary ((window s.sel.active start count (fitting 18 4)).map s.activeRow)
  | .outstanding =>
    .outstanding s.outstandingSummary
      ((window s.ord.outstanding start count (fitting 6 24)).map s.outstandingRow)
  | .quarantine =>
    .quarantine s.ord.quarantine.length (window s.ord.quarantine start count (fitting 2 1))

/-- The decision of QUERY (R180). -/
def decideQuery (s : State) (body : List Byte) : State × Reply :=
  let q := parseQuery body
  if s.mod.mode = .halted then refuse s .badState
  else
    match q.table with
    | none => refuse s .badRange
    | some t =>
      if s.lastStart t < q.start then refuse s .badRange
      else (s, .query q.start (s.readTable t q.start q.count))

/-- QUERY. -/
def execQuery (s : State) : Host.Outcome State Fault Refusal :=
  s.whenReleased fun s => s.dispatch .query decideQuery

end Sys2Proof.Machine
end

