-- ==== Sys2Proof/Machine/HostTables.lean ====
section
/-!
DEFINITION. The commands that STT, FPL and COH take: ADMIT, RELEASE, SET_WEIGHT, HOLD (chapter 1), ENQUEUE, FLUSH
(chapter 2), SET_COHORT (chapter 5).
-/

namespace Sys2Proof.Machine

/-- An index that names a client station or station 0 (R1). -/
def stationIndex (i : Nat) : Bool :=
  decide (i < Config.stationCount)

/-- A weight is 1..64 (R1). -/
def weightOk (w : Nat) : Bool :=
  inRange 1 64 w

/-! ## ADMIT -/

/-- The record of a station just admitted (R4). -/
def Station.admitted (cfg : Configuration) (a : AdmitFields) (x : Station) : Station :=
  { x with
    state := .idle
    address := a.address
    weight := a.weight
    stagedWeight := none
    held := false
    stagedHold := none
    rate := if a.rate = 0 then cfg.defaultRate else a.rate
    balance := 0
    quantum := 0
    cap := cfg.orderMaxUs
    inFlight := 0
    usedRound := 0
    delivered := 0
    failed := 0 }

/-- The decision of ADMIT (R4, R5). -/
def decideAdmit (s : State) (body : List Byte) : State × Reply :=
  let a := parseAdmit body
  if s.mod.mode = .halted then refuse s .badState
  else if !stationIndex a.index || !weightOk a.weight
      || !(a.rate == 0 || inRange Config.minRate Config.maxRate a.rate) then refuse s .badRange
  else if a.index = 0 then refuse s .badState
  else if (s.station a.index).state ≠ .vacant then refuse s .badState
  else if LinkNote.unbind a.index ∈ s.stt.linkNotes then refuse s .badState
  else
    accept ((s.updStation a.index (Station.admitted s.mod.config a)).formNote (.bind a.index a.address))

/-- ADMIT. -/
def execAdmit (s : State) : Host.Outcome State Fault Refusal :=
  s.whenReleased fun s => s.dispatch .admitStation decideAdmit

/-! ## RELEASE -/

/-- An index that RELEASE, SET_WEIGHT and HOLD accept: a client station that is neither VACANT nor LEAVING (R7, R9). -/
def State.admittedClient (s : State) (i : Nat) : Bool :=
  i != 0 && !((s.station i).state == .vacant) && !((s.station i).state == .leaving)

/-- STT's part of a release: VACANT with an UNBIND note, or LEAVING while orders are in flight (R7). -/
def State.releaseStation (s : State) (i : Nat) : State :=
  let t := (s.removeFromLists i).updStation i fun x => { x with stagedWeight := none, stagedHold := none }
  if (t.station i).inFlight = 0 then (t.clearStation i).formNote (.unbind i)
  else t.updStation i fun x => { x with state := .leaving, held := false }

/-- The decision of RELEASE (R7, R40). -/
def decideRelease (s : State) (body : List Byte) : State × Reply :=
  let i := field body 0 2
  if s.mod.mode = .halted then refuse s .badState
  else if !stationIndex i then refuse s .badRange
  else if !s.admittedClient i then refuse s .badState
  else accept ((s.releaseStation i).returnLanes i .released allLanes)

/-- RELEASE. -/
def execRelease (s : State) : Host.Outcome State Fault Refusal :=
  s.whenReleased fun s => s.dispatch .release decideRelease

/-! ## SET_WEIGHT and HOLD -/

/-- A change is applied at once in READY or with IMMEDIATE set; otherwise it is staged (R9, R10). -/
def State.atOnce (s : State) (immediate : Bool) : Bool :=
  immediate || s.mod.mode == .ready

/-- The decision of SET_WEIGHT (R9). -/
def decideSetWeight (s : State) (body : List Byte) : State × Reply :=
  let c := parseStationChange body
  if s.mod.mode = .halted then refuse s .badState
  else if !stationIndex c.index || !weightOk c.value then refuse s .badRange
  else if !s.admittedClient c.index then refuse s .badState
  else
    accept (s.updStation c.index fun x =>
      if s.atOnce c.immediate then { x with weight := c.value, stagedWeight := none }
      else { x with stagedWeight := some c.value })

/-- SET_WEIGHT. -/
def execSetWeight (s : State) : Host.Outcome State Fault Refusal :=
  s.whenReleased fun s => s.dispatch .setWeight decideSetWeight

/-- A hold applied at once; a change of held from true to false is a cause for a selection run (R10). -/
def State.applyHold (s : State) (i : Nat) (v : Bool) : State :=
  let t := s.updStation i fun x => { x with held := v, stagedHold := none }
  if (s.station i).held && !v then t.selectionRun else t

/-- The decision of HOLD (R10). A hold value that is neither 0 nor 1 is out of range (R189). -/
def decideHold (s : State) (body : List Byte) : State × Reply :=
  let c := parseStationChange body
  if s.mod.mode = .halted then refuse s .badState
  else if !stationIndex c.index || !inRange 0 1 c.value then refuse s .badRange
  else if !s.admittedClient c.index then refuse s .badState
  else
    accept
      (if s.atOnce c.immediate then s.applyHold c.index (c.value == 1)
      else s.updStation c.index fun x => { x with stagedHold := some (c.value == 1) })

/-- HOLD. -/
def execHold (s : State) : Host.Outcome State Fault Refusal :=
  s.whenReleased fun s => s.dispatch .hold decideHold

/-! ## ENQUEUE -/

/-- The lane a frame record goes to: BULK for station 0 (R27, R28). -/
def frameLane (f : FrameFields) : Option Lane :=
  (laneOf f.lane).map fun l => if f.station = 0 then .bulk else l

/-- The first check of R27 that a frame record fails, as its frame result; none where it passes them all. -/
def State.frameRefusal (s : State) (f : FrameFields) : Option ReplyCode :=
  if !stationIndex f.station then some .badRange
  else if (s.station f.station).state = .vacant ∨ (s.station f.station).state = .leaving then some .notAdmitted
  else
    match frameLane f with
    | none => some .badRange
    | some l =>
      if !inRange 1 Config.maxFrameLength f.length || decide (Config.maxLifetimeMs < f.lifetimeMs) then some .badRange
      else if s.mod.config.laneLimit ≤ (s.lane f.station l).length then some .full
      else if s.fpl.freeEntries = 0 then some .full
      else none

/-- One frame record is decided (R27, R28, R44). -/
def State.offerFrame (s : State) (f : FrameFields) : State × ReplyCode :=
  match s.frameRefusal f with
  | some c => (s.updFpl fun p => { p with framesRefused := satAdd p.framesRefused 1 }, c)
  | none =>
    (s.acceptFrame
      (s.newFrame f.token f.station ((frameLane f).getD .bulk) f.length f.lifetimeMs f.noAgg), .ok)

/-- Every frame record in order, each seeing the effect of those before it (R27). -/
def State.offerFrames : List FrameFields → State → State × List ReplyCode
  | [], s => (s, [])
  | f :: fs, s =>
    let (t, c) := s.offerFrame f
    let (u, cs) := State.offerFrames fs t
    (u, c :: cs)

/-- The decision of ENQUEUE (R27, R29). -/
def decideEnqueue (s : State) (body : List Byte) : State × Reply :=
  if s.mod.mode = .halted then refuse s .badState
  else if !inRange 1 Config.enqueueFrames (enqueueCount body) then refuse s .badRange
  else
    let (t, results) := s.offerFrames (parseEnqueue body)
    (if results.any (· == .ok) then t.selectionRun else t, .enqueue results)

/-- ENQUEUE. -/
def execEnqueue (s : State) : Host.Outcome State Fault Refusal :=
  s.whenReleased fun s => s.dispatch .enqueue decideEnqueue

/-! ## FLUSH -/

/-- How many entries the given lanes of a station hold. -/
def State.queuedIn (s : State) (i : Nat) (ls : List Lane) : Nat :=
  (ls.map fun l => (s.lane i l).length).sum

/-- The decision of FLUSH (R38). -/
def decideFlush (s : State) (body : List Byte) : State × Reply :=
  let f := parseFlush body
  if s.mod.mode = .halted then refuse s .badState
  else if !stationIndex f.station then refuse s .badRange
  else
    match maskLanes f.mask with
    | none => refuse s .badRange
    | some ls =>
      if (s.station f.station).state = .vacant then refuse s .badState
      else (s.returnLanes f.station .flushed ls, .flush (s.queuedIn f.station ls))

/-- FLUSH. -/
def execFlush (s : State) : Host.Outcome State Fault Refusal :=
  s.whenReleased fun s => s.dispatch .flush decideFlush

/-! ## SET_COHORT -/

/-- A cohort record with a change applied at once (R87). -/
def Cohort.change (f : CohortFields) (c : Cohort) : Cohort :=
  { c with
    span := f.span
    capPm := if f.span = 0 then c.capPm else f.capPm
    stagedSpan := none
    stagedCapPm := none }

/-- A cohort record with a change staged (R87). -/
def Cohort.stage (f : CohortFields) (c : Cohort) : Cohort :=
  { c with
    stagedSpan := some f.span
    stagedCapPm := if f.span = 0 then none else some f.capPm }

/-- The decision of SET_COHORT (R86, R87). -/
def decideSetCohort (s : State) (body : List Byte) : State × Reply :=
  let f := parseSetCohort body
  if s.mod.mode = .halted then refuse s .badState
  else if !decide (f.number < Config.cohortCount) then refuse s .badRange
  else if !inRange 0 512 f.span then refuse s .badRange
  else if f.span != 0 && !inRange 1 1000 f.capPm then refuse s .badRange
  else if s.mod.mode = .ready then
    accept ((s.updCohort f.number (Cohort.change f)).membershipAfter s.coh)
  else accept (s.updCohort f.number (Cohort.stage f))

/-- SET_COHORT. -/
def execSetCohort (s : State) : Host.Outcome State Fault Refusal :=
  s.whenReleased fun s => s.dispatch .setCohort decideSetCohort

end Sys2Proof.Machine
end

