-- ==== Sys2Proof/Machine/MacEvents.lean ====
section
/-!
DEFINITION. The records the RLI delivers (R186): TX_OUTCOME to ORD (R124 to R136), the medium records to MGD (R144 to
R150), DOZE, WAKE and POLL to STT (R12 to R15).
-/

namespace Sys2Proof.Machine

/-- The head record of the radio inbound queue is delivered if `take` names it: it leaves the queue, which gives up its
place, and is taken whole by its owner (R186). Any choice is followed through first (R106). -/
def State.deliver (s : State) (take : MacRecord → Option (State → State)) : State :=
  match s.rli.inbound with
  | [] => s
  | r :: _ =>
    match take r with
    | none => s
    | some f => f (s.settle.updRli fun q => { q with inbound := q.inbound.drop 1 })

/-! ## TX_OUTCOME -/

/-- ORD matches an outcome by its id as accepted, late or unmatched (R124). An accepted outcome frees a window slot and
may end a drain (R125 step 9). -/
def State.takeOutcome (x : Outcome) (s : State) : State :=
  match s.ord.outstanding.find? (fun o => o.id == x.id) with
  | some o => (s.acceptOutcome o x).reportEmpty.selectionRun
  | none => if x.id ∈ s.ord.quarantine then s.lateOutcome x.id else s.unmatchedOutcome

/-- TX_OUTCOME. -/
def execTxOutcome (s : State) : Host.Outcome State Fault Refusal :=
  s.whenReleased fun s => s.deliver fun r => match r with
    | .txOutcome x => some (State.takeOutcome x)
    | _ => none

/-! ## Medium records -/

/-- In HALTED a medium record is discarded and counted; otherwise MGD takes it as `f` says (R150). -/
def State.takeMedium (f : State → State) (s : State) : State :=
  if s.mod.mode = .halted then s.updMgd fun g => { g with mediumIgnored := satAdd g.mediumIgnored 1 }
  else f s

/-- A MEDIUM_REPORT outside HALTED (R144). -/
def State.takeReport (pm : Nat) (s : State) : State :=
  match s.mgd.blanking with
  | none => s.updMgd fun g => { g with freeNow := min pm 1000, mediumReports := satAdd g.mediumReports 1 }
  | some _ => s.updMgd fun g => { g with reportsBlanked := satAdd g.reportsBlanked 1 }

/-- MEDIUM_REPORT. -/
def execMediumReport (s : State) : Host.Outcome State Fault Refusal :=
  s.whenReleased fun s => s.deliver fun r => match r with
    | .mediumReport pm => some (State.takeMedium (State.takeReport pm))
    | _ => none

/-- The capture record is filled by the first alert of an episode (R147 step 1, R148). -/
def State.fillCapture (s : State) (cause : AlertCause) : State :=
  if s.mod.causes.medium then s
  else
    s.updMgd fun g =>
      { g with capture := { time := s.rck.deviceTime, round := s.rck.round, offset := s.roundOffset, cause := cause } }

/-- A MEDIUM_ALERT outside HALTED (R147). -/
def State.takeAlert (cause : AlertCause) (s : State) : State :=
  let t := s.fillCapture cause
  let t := (t.setCauses { t.mod.causes with medium := true }).restartBlanking
  (t.updMgd fun g => { g with mediumAlerts := satAdd g.mediumAlerts 1 }).setPendingAlert

/-- MEDIUM_ALERT. -/
def execMediumAlert (s : State) : Host.Outcome State Fault Refusal :=
  s.whenReleased fun s => s.deliver fun r => match r with
    | .mediumAlert c => some (State.takeMedium (State.takeAlert c))
    | _ => none

/-- A MEDIUM_CLEAR outside HALTED (R149). -/
def State.takeClear (s : State) : State :=
  (s.setCauses { s.mod.causes with medium := false }).restartBlanking

/-- MEDIUM_CLEAR. -/
def execMediumClear (s : State) : Host.Outcome State Fault Refusal :=
  s.whenReleased fun s => s.deliver fun r => match r with
    | .mediumClear => some (State.takeMedium State.takeClear)
    | _ => none

/-! ## DOZE, WAKE and POLL -/

/-- The state of the client station a record names; none where R15 discards and counts the record: station 0, an index
above 511 (R185), a VACANT or a LEAVING station. -/
def State.awakeOrDozing (s : State) (i : Nat) : Option StationState :=
  if i = 0 ∨ Config.stationCount ≤ i then none
  else
    match (s.station i).state with
    | .vacant | .leaving => none
    | .idle => some .idle
    | .backlogged => some .backlogged
    | .dozing => some .dozing

/-- A DOZE (R12, R15). -/
def State.takeDoze (i : Nat) (s : State) : State :=
  match s.awakeOrDozing i with
  | none => s.ignoreRadio
  | some .dozing => s
  | some _ => ((s.setStationState i .dozing).removeActive i).removePrompt i

/-- DOZE. -/
def execDoze (s : State) : Host.Outcome State Fault Refusal :=
  s.whenReleased fun s => s.deliver fun r => match r with
    | .doze i => some (State.takeDoze i)
    | _ => none

/-- The doze of station `i` ends; one that wakes in the middle of a round has quantum 0 (R13). -/
def State.endDoze (s : State) (i : Nat) : State :=
  let t := s.removePoll i
  if (t.lanesOf i).allEmpty then t.resumeAs i .idle
  else
    let u := (t.resumeAs i .backlogged).placeActive i
    if (t.lanesOf i).prompt.isEmpty then u else u.placePrompt i

/-- A WAKE (R13, R15). -/
def State.takeWake (i : Nat) (s : State) : State :=
  match s.awakeOrDozing i with
  | none => s.ignoreRadio
  | some .dozing => (s.endDoze i).selectionRun
  | some _ => s

/-- WAKE. -/
def execWake (s : State) : Host.Outcome State Fault Refusal :=
  s.whenReleased fun s => s.deliver fun r => match r with
    | .wake i => some (State.takeWake i)
    | _ => none

/-- A POLL of a DOZING station (R14). A POLL for a station already on the poll list changes nothing. -/
def State.grantPoll (s : State) (i : Nat) : State :=
  if (s.lanesOf i).allEmpty then s.formPollEmpty i
  else (s.placePoll i).selectionRun

/-- A POLL (R14, R15). -/
def State.takePoll (i : Nat) (s : State) : State :=
  match s.awakeOrDozing i with
  | none => s.ignoreRadio
  | some .dozing => s.grantPoll i
  | some _ => s

/-- POLL. -/
def execPoll (s : State) : Host.Outcome State Fault Refusal :=
  s.whenReleased fun s => s.deliver fun r => match r with
    | .poll i => some (State.takePoll i)
    | _ => none

end Sys2Proof.Machine
end

