-- ==== Sys2Proof/Machine/RadioLink.lean ====
section
/-!
DEFINITION. The Radio Link: arriving records (R184, R185, R190), records being sent (R182), and the slots the
arbiter gives out (R183).
-/

namespace Sys2Proof.Machine

/-- The record that the bytes `framed` form. One that no end-of-record symbol has closed fails the length comparison,
which counts the bytes between the two symbols (R190, log entry 13). -/
def arrivedRecord (framed : List Byte) (closed : Bool) : Option MacRecord :=
  if closed then parseMacRecord framed else none

/-- A record that had claimed a place has ended with the data bytes `framed`: well formed it waits for delivery in its
place, malformed it is discarded and counted, and its place is given up (R185). -/
def Rli.takeRecord (r : Rli) (framed : List Byte) (closed : Bool) : Rli :=
  match arrivedRecord framed closed with
  | none => { r with arrival := .idle, rlMalformed := satAdd r.rlMalformed 1 }
  | some m => { r with arrival := .idle, inbound := r.inbound ++ [m] }

/-- The record in progress ends (R185); one that was being discarded leaves nothing (R184). -/
def State.endRecord (s : State) (framed : List Byte) (closed : Bool) : State :=
  match s.rli.arrival with
  | .idle => s
  | .discarding => s.updRli fun r => { r with arrival := .idle }
  | .claimed => s.updRli fun r => r.takeRecord framed closed

/-- RECORD_END. -/
def execRecordEnd (framed : List Byte) (s : State) : Host.Outcome State Fault Refusal :=
  s.whenReleased fun s => s.endRecord framed true

/-- A start-of-record symbol ends a record in progress, framed with the bytes so far and not closed (R190), and the new
record claims a place, or is discarded and counted while PART_RDY is deasserted (R184). -/
def State.startRecord (s : State) (cut : List Byte) : State :=
  let t := s.endRecord cut false
  if t.partRdy then t.updRli fun r => { r with arrival := .claimed }
  else t.updRli fun r => { r with arrival := .discarding, rlOverrun := satAdd r.rlOverrun 1 }

/-- RECORD_START. -/
def execRecordStart (cut : List Byte) (s : State) : Host.Outcome State Fault Refusal :=
  s.whenReleased fun s => s.startRecord cut

/-- The RLI, ready to begin the head record, samples MAC_RDY: asserted, it begins the record and will send it whole;
deasserted, the record waits (R182). -/
def State.beginSending (s : State) (macRdy : Bool) : State :=
  if macRdy && !s.rli.sending && !s.rli.outbound.isEmpty then
    s.updRli fun r => { r with sending := true, rlTx := [.startOfRecord] }
  else s

/-- RADIO_RECORD_BEGIN. -/
def execRadioRecordBegin (macRdy : Bool) (s : State) : Host.Outcome State Fault Refusal :=
  s.whenReleased fun s => s.beginSending macRdy

/-- The record begun has been sent whole: it leaves the queue and frees one slot (R182). -/
def State.finishSending (s : State) : State :=
  match s.rli.outbound with
  | [] => s
  | x :: rest =>
    if s.rli.sending then s.updRli fun r => { r with sending := false, outbound := rest, rlTx := x.symbols }
    else s

/-- RADIO_RECORD_SENT. -/
def execRadioRecordSent (s : State) : Host.Outcome State Fault Refusal :=
  s.whenReleased State.finishSending

/-- CANCEL_ALL: a free slot goes to the pending CANCEL_ALL (R183). -/
def execCancelAll (s : State) : Host.Outcome State Fault Refusal :=
  s.whenReleased State.giveCancel

/-- LINK_NOTE_HANDED: a free slot goes to the head link note (R6, R183). -/
def execLinkNoteHanded (s : State) : Host.Outcome State Fault Refusal :=
  s.whenReleased fun s => s.giveNotes 1

/-- TX_ORDER_PLACED: a free slot goes to the oldest held TX_ORDER (R123, R183). -/
def execTxOrderPlaced (s : State) : Host.Outcome State Fault Refusal :=
  s.whenReleased fun s => s.giveOrders 1

end Sys2Proof.Machine
end

