-- ==== Sys2Proof/Machine/Dispatch.lean ====
section
/-! DEFINITION. The effect of each command on everything but the queue: one arm per constructor of Instr. -/

namespace Sys2Proof.Machine

def exec (i : Instr) (s : State) : Host.Outcome State Fault Refusal :=
  match i with
  | .writeTransaction bytes => Sys2Proof.Machine.execWriteTransaction bytes s
  | .readTransaction clocked => Sys2Proof.Machine.execReadTransaction clocked s
  | .idleTransaction clocked => Sys2Proof.Machine.execIdleTransaction clocked s
  | .unknownType => Sys2Proof.Machine.execUnknownType s
  | .configure => Sys2Proof.Machine.execConfigure s
  | .start => Sys2Proof.Machine.execStart s
  | .stop => Sys2Proof.Machine.execStop s
  | .abort => Sys2Proof.Machine.execAbort s
  | .reset => Sys2Proof.Machine.execReset s
  | .quiet => Sys2Proof.Machine.execQuiet s
  | .resume => Sys2Proof.Machine.execResume s
  | .status => Sys2Proof.Machine.execStatus s
  | .admitStation => Sys2Proof.Machine.execAdmit s
  | .release => Sys2Proof.Machine.execRelease s
  | .setWeight => Sys2Proof.Machine.execSetWeight s
  | .hold => Sys2Proof.Machine.execHold s
  | .enqueue => Sys2Proof.Machine.execEnqueue s
  | .flush => Sys2Proof.Machine.execFlush s
  | .setCohort => Sys2Proof.Machine.execSetCohort s
  | .query => Sys2Proof.Machine.execQuery s
  | .tokenReturn => Sys2Proof.Machine.execTokenReturn s
  | .alert => Sys2Proof.Machine.execAlert s
  | .attnPulse => Sys2Proof.Machine.execAttnPulse s
  | .recordStart cut => Sys2Proof.Machine.execRecordStart cut s
  | .recordEnd framed => Sys2Proof.Machine.execRecordEnd framed s
  | .txOutcome => Sys2Proof.Machine.execTxOutcome s
  | .mediumReport => Sys2Proof.Machine.execMediumReport s
  | .mediumAlert => Sys2Proof.Machine.execMediumAlert s
  | .mediumClear => Sys2Proof.Machine.execMediumClear s
  | .doze => Sys2Proof.Machine.execDoze s
  | .wake => Sys2Proof.Machine.execWake s
  | .poll => Sys2Proof.Machine.execPoll s
  | .radioRecordSent => Sys2Proof.Machine.execRadioRecordSent s
  | .cancelAll => Sys2Proof.Machine.execCancelAll s
  | .linkNoteHanded => Sys2Proof.Machine.execLinkNoteHanded s
  | .txOrderPlaced => Sys2Proof.Machine.execTxOrderPlaced s
  | .frameExpiry => Sys2Proof.Machine.execFrameExpiry s
  | .orderTimeout => Sys2Proof.Machine.execOrderTimeout s
  | .blankingExpiry => Sys2Proof.Machine.execBlankingExpiry s
  | .roundBoundary => Sys2Proof.Machine.execRoundBoundary s
  | .promptBoundary => Sys2Proof.Machine.execPromptBoundary s
  | .orderBuild => Sys2Proof.Machine.execOrderBuild s
  | .pinReset => Sys2Proof.Machine.execPinReset s
  | .resetNRelease => Sys2Proof.Machine.execResetNRelease s
  | .directionByte b => Sys2Proof.Machine.execDirectionByte b s
  | .radioRecordBegin macRdy => Sys2Proof.Machine.execRadioRecordBegin macRdy s

end Sys2Proof.Machine
end

