-- ==== Sys2Proof/Machine/Idle.lean ====
section
/-!
DEFINITION. What the part does by itself when no command waits (log entry 3): the first of its own events that is
due, and otherwise one microsecond passes.
-/

namespace Sys2Proof.Machine

/-- The command of the table that dispatches a host command. -/
def Command.event (c : Command) : Instr :=
  match c with
  | .configure => .configure
  | .start => .start
  | .stop => .stop
  | .abort => .abort
  | .reset => .reset
  | .quiet => .quiet
  | .resume => .resume
  | .status => .status
  | .admitStation => .admitStation
  | .release => .release
  | .setWeight => .setWeight
  | .hold => .hold
  | .enqueue => .enqueue
  | .flush => .flush
  | .setCohort => .setCohort
  | .query => .query

/-- The command that dispatches a host record of this type (R177). -/
def dispatchEvent (typ : Byte) : Instr :=
  match commandOf typ with
  | none => .unknownType
  | some c => c.event

/-- The command that delivers a record from the MAC (R186). -/
def deliveryEvent (r : MacRecord) : Instr :=
  match r with
  | .txOutcome _ => .txOutcome
  | .mediumReport _ => .mediumReport
  | .mediumAlert _ => .mediumAlert
  | .mediumClear => .mediumClear
  | .doze _ => .doze
  | .wake _ => .wake
  | .poll _ => .poll

/-- A source waits for a radio outbound slot that is free, first in the order of R183. -/
def State.slotEvent (s : State) : Option Instr :=
  if s.radioFree = 0 then none
  else if s.ord.cancelPending then some .cancelAll
  else if !s.stt.linkNotes.isEmpty then some .linkNoteHanded
  else if !(heldOrders s.ord.outstanding).isEmpty then some .txOrderPlaced
  else none

/-- The command at the head of the inbound queue can be dispatched (R177). -/
def State.hostEvent (s : State) : Option Instr :=
  (s.dispatchable fun _ => true).map fun r => dispatchEvent r.typ

/-- A deadline has passed (R69). -/
def State.deadlineEvent (s : State) : Option Instr :=
  if s.expiryDue.isSome then some .frameExpiry
  else if s.timeoutDue.isSome then some .orderTimeout
  else if s.blankingDue then some .blankingExpiry
  else if s.roundDue then some .roundBoundary
  else if s.promptDue then some .promptBoundary
  else none

/-- A notice can be formed, or an ATTN pulse ends (R42, R170, R179). -/
def State.noticeEvent (s : State) : Option Instr :=
  if s.tokenReturnDue then some .tokenReturn
  else if s.alertDue then some .alert
  else if s.pulseEnded then some .attnPulse
  else none

/-- The first of the part's own events that is due, in one fixed order (log entry 3). -/
def State.ownEvent (s : State) : Option Instr :=
  if s.resetN then none
  else
    (if s.sel.choice.isSome then some Instr.orderBuild else none)
      <|> s.slotEvent <|> s.hostEvent <|> (s.rli.inbound.head?).map deliveryEvent
      <|> s.deadlineEvent <|> s.noticeEvent

/-- One microsecond passes (R68): device time advances by 1 while it runs. -/
def State.tick (s : State) : State :=
  s.updRck fun r => { r with deviceTime := if r.timeRunning then r.deviceTime + 1 else r.deviceTime }

/-- A word's command is put in front of the queue; the state is unchanged where the word spells none. -/
def State.withCommand (s : State) (c : Option Instr) : State :=
  match c with
  | none => s
  | some i => { s with pending := i :: s.pending }

end Sys2Proof.Machine
end

