-- ==== Sys2Proof/Safety.lean ====
section
/-!
DEFINITION. What the statements speak of: the invariants of the part, block by block, and short names for the
situations and results that many statements share. Nothing here is used by the machine.
-/

namespace Sys2Proof.Machine

/-! ## Ranges of the configuration record (R159) -/

/-- Every field lies in its range of R159, the two cross-field conditions included. -/
def Configuration.inRanges (c : Configuration) : Bool :=
  inRange 10000 250000 c.roundUs
    && inRange 2000 50000 c.promptPeriodUs && decide (c.promptPeriodUs ≤ c.roundUs)
    && inRange 0 500 c.promptPm && inRange 0 300 c.groupPm
    && inRange 100 1000 c.freeFloorPm && inRange c.freeFloorPm 1000 c.freeInitialPm
    && inRange 0 500 c.orderOverheadUs && inRange 0 50 c.subframeUs
    && inRange 500 5000 c.orderMaxUs && inRange 1 16 c.orderMaxFrames
    && inRange 1 4 c.window && inRange 1 255 c.orderTimeoutMs
    && inRange 1 15 c.lossLimit && inRange 0 3 c.requeueMax && inRange 4 256 c.laneLimit
    && inRange 0 65535 c.debtLimitUs && inRange 0 16 c.reportEvery
    && inRange 0 2000 c.blankMs && inRange 2 2400 c.groupRate && inRange 2 2400 c.defaultRate

/-! ## Invariants -/

/-- The mode, the clocks, the quiet-cause set and the configuration record agree (R68, R82, R150, R154, R158, R159). -/
structure State.ModeInv (s : State) : Prop where
  halted : s.mod.mode = .halted ↔ s.mod.configValid = false
  time : s.rck.timeRunning = true ↔ s.mod.mode ≠ .halted
  clocks : s.rck.clocksRunning = true ↔
    (s.mod.mode = .running ∨ s.mod.mode = .quiet ∨ s.mod.mode = .draining)
  haltedCauses : s.mod.mode = .halted → s.mod.causes = .empty
  runningCauses : s.mod.mode = .running → s.mod.causes = .empty
  quietCauses : s.mod.mode = .quiet → s.mod.causes ≠ .empty
  config : s.mod.config.inRanges = true

/-- The outstanding list, the quarantine list and the choice (R104, R118, R119, R122, R134, R158). -/
structure State.OrderInv (s : State) : Prop where
  window : s.ord.outstanding.length ≤ s.mod.config.window
  ids : (s.ord.outstanding.map Order.id).Nodup
  quarantineIds : s.ord.quarantine.Nodup
  quarantineLength : s.ord.quarantine.length ≤ Config.quarantineIds
  apart : ∀ o ∈ s.ord.outstanding, o.id ∉ s.ord.quarantine
  stopped : s.mod.mode = .halted ∨ s.mod.mode = .ready → s.ord.outstanding = []
  draining : s.mod.mode = .draining → s.ord.outstanding ≠ []
  choice : s.sel.choice ≠ none →
    s.mod.mode = .running ∧ s.ord.outstanding.length < s.mod.config.window
  frames : ∀ o ∈ s.ord.outstanding, 1 ≤ o.frames.length ∧ o.frames.length ≤ 16
  estimates : ∀ o ∈ s.ord.outstanding, o.est ≤ Config.airtimeMax
  deadlines : ∀ o ∈ s.ord.outstanding,
    o.deadline = deadlineAfter o.issueTime (s.mod.config.orderTimeoutMs * 1000)

/-- How many entries are QUEUED. -/
def State.queuedTotal (s : State) : Nat :=
  (s.fpl.lanes.rows.map Lanes.total).sum

/-- How many entries are IN_FLIGHT. -/
def State.inFlightTotal (s : State) : Nat :=
  (s.ord.outstanding.map fun o => o.frames.length).sum

/-- FREE, QUEUED, IN_FLIGHT and RETURNING entries together (R23). -/
def State.poolTotal (s : State) : Nat :=
  s.fpl.freeEntries + s.queuedTotal + s.inFlightTotal + s.fpl.returnList.length

/-- The pool holds 4,096 entries, and every order serves a station there is (R23, R118). -/
structure State.PoolInv (s : State) : Prop where
  total : s.poolTotal = Config.frameEntries
  stations : ∀ o ∈ s.ord.outstanding, o.station < Config.stationCount

/-- How many outstanding orders name station `i`. -/
def State.ordersNaming (s : State) (i : Nat) : Nat :=
  s.ord.outstanding.countP fun o => o.station == i

/-- The station states, their lanes, the selector lists, the choice and the in_flight counts agree (R2, R3, R17, R25, R96,
R99, R100, R107, R108). -/
structure State.ListInv (s : State) : Prop where
  activeOnce : s.sel.active.Nodup
  active : ∀ i, i ∈ s.sel.active ↔ i ≠ 0 ∧ (s.station i).state = .backlogged
  promptOnce : s.sel.prompt.Nodup
  prompt : ∀ i, i ∈ s.sel.prompt ↔
    i ≠ 0 ∧ (s.station i).state = .backlogged ∧ s.lane i .prompt ≠ []
  pollOnce : s.sel.poll.Nodup
  poll : ∀ i ∈ s.sel.poll,
    i ≠ 0 ∧ (s.station i).state = .dozing ∧ (s.lanesOf i).allEmpty = false
  backlogged : ∀ i, i ≠ 0 → (s.station i).state = .backlogged → (s.lanesOf i).allEmpty = false
  idle : ∀ i, i ≠ 0 → (s.station i).state = .idle → (s.lanesOf i).allEmpty = true
  gone : ∀ i, (s.station i).state = .vacant ∨ (s.station i).state = .leaving →
    (s.lanesOf i).allEmpty = true
  choice : ∀ c, s.sel.choice = some c → c.station ∉ s.sel.poll
  group : (s.station 0).state = (if s.mod.mode = .halted then .vacant else .idle)
  groupLane : s.lane 0 .prompt = [] ∧ s.lane 0 .slack = []
  groupOrders : ∀ o ∈ s.ord.outstanding, o.station = 0 → o.lane = .bulk
  inFlight : ∀ i, (s.station i).inFlight = s.ordersNaming i
  vacant : ∀ i, (s.station i).state = .vacant → (s.station i).inFlight = 0
  leaving : ∀ i, (s.station i).state = .leaving → (s.station i).inFlight ≠ 0

/-- Balances, rates and budgets lie within their bounds (R2, R16, R18, R62, R64, R65, R84, R102, R103). -/
structure State.AccountInv (s : State) : Prop where
  balances : ∀ i, i < Config.stationCount →
    -(s.mod.config.debtLimitUs : Int) ≤ (s.station i).balance
      ∧ (s.station i).balance ≤ (s.station i).cap ∧ (s.station i).cap ≤ Config.airtimeMax
  halted : s.mod.mode = .halted → ∀ i, i < Config.stationCount → (s.station i).balance = 0
  groupBalance : (s.station 0).balance = 0 ∧ (s.station 0).quantum = 0 ∧ (s.station 0).cohort = none
  groupRate : s.mod.mode ≠ .halted →
    (s.station 0).rate = s.mod.config.groupRate ∧ (s.station 0).cap = s.mod.config.orderMaxUs
  rates : ∀ i, i < Config.stationCount →
    Config.minRate ≤ (s.station i).rate ∧ (s.station i).rate ≤ Config.maxRate
  cohorts : ∀ c, c < Config.cohortCount →
    -(Config.airtimeMax : Int) ≤ (s.cohort c).budget ∧ (s.cohort c).budget ≤ (s.cohort c).allot
  groupBudget : -(Config.airtimeMax : Int) ≤ s.sel.groupBudget ∧ s.sel.groupBudget ≤ s.sel.groupAllot
  promptBudget : -(Config.airtimeMax : Int) ≤ s.sel.promptBudget ∧ s.sel.promptBudget ≤ s.sel.promptAllot

/-- The queues of the two links and the ATTN pulses keep their capacities (R174, R176, R178, R179, R182, R184). -/
structure State.QueueInv (s : State) : Prop where
  controlInbound : s.cli.inbound.length ≤ Config.controlInbound
  reserved : s.cli.transaction = some (.write true) → s.cli.inbound.length < Config.controlInbound
  controlOutbound : s.cli.outbound.length ≤ Config.controlOutbound
  backlog : s.cli.backlog ≤ Config.backlogMax
  pulse : s.cli.pulse ≠ none ↔ 0 < s.cli.backlog
  pulseOnly : s.mod.attnOperation ≠ some .pulse → s.cli.backlog = 0
  radioInbound : s.claimedPlaces ≤ Config.radioInbound
  radioOutbound : s.rli.outbound.length ≤ Config.radioOutbound
  sending : s.rli.sending = true → s.rli.outbound ≠ []

/-! ## Situations -/

/-- The command `c` stands at the head of the control inbound queue as the record `r`, with `rest` behind it: RESET_N
is released, no choice waits for its build, a slot is free for the reply, and the CLI's own checks pass (R177). -/
abbrev State.Heads (s : State) (c : Command) (r : HostRecord) (rest : List HostRecord) : Prop :=
  s.resetN = false ∧ s.sel.choice = none ∧ s.cli.inbound = r :: rest
    ∧ s.cli.outbound.length < Config.controlOutbound ∧ commandOf r.typ = some c
    ∧ r.short = false ∧ bodyLengthOk c r.body = true

/-- The record `r` from the MAC stands at the head of the radio inbound queue, with `rest` behind it. -/
abbrev State.Delivers (s : State) (r : MacRecord) (rest : List MacRecord) : Prop :=
  s.resetN = false ∧ s.sel.choice = none ∧ s.rli.inbound = r :: rest

/-- RLI when the head of its inbound queue has been delivered. -/
def State.delivered (s : State) (rest : List MacRecord) : Rli :=
  { s.rli with inbound := rest }

/-! ## Results -/

/-- CLI when one record has entered its outbound queue under the ATTN operation `op` (R178, R179). -/
def Cli.pushed (c : Cli) (now : Time) (op : Option AttnMode) (x : OutRecord) : Cli :=
  { c with
    outbound := c.outbound ++ [x]
    backlog := if op = some .pulse then min (c.backlog + 1) 255 else c.backlog
    pulse := if op = some .pulse ∧ c.pulse = none then some now else c.pulse }

/-- CLI when the head command `r` has been answered with `reply`, with `rest` behind it (R177). -/
def State.answered (s : State) (r : HostRecord) (rest : List HostRecord) (reply : Reply) : Cli :=
  Cli.pushed { s.cli with inbound := rest } s.rck.deviceTime s.mod.attnOperation (.reply r.typ r.tag reply)

/-- CLI when a notice has been placed (R178). -/
def State.noticed (s : State) (x : OutRecord) : Cli :=
  Cli.pushed s.cli s.rck.deviceTime s.mod.attnOperation x

/-- The modes in which R158 and the commands' own rules refuse a command whatever it carries. -/
def modeRefuses (c : Command) (m : Mode) : Bool :=
  match c, m with
  | .configure, .running | .configure, .quiet | .configure, .draining => true
  | .configure, _ => false
  | .start, .ready => false
  | .start, _ => true
  | .stop, .running | .stop, .quiet => false
  | .stop, _ => true
  | .abort, .running | .abort, .quiet | .abort, .draining => false
  | .abort, _ => true
  | .status, _ => false
  | _, .halted => true
  | _, _ => false

/-- What stands in line for the MAC ahead of the held TX_ORDERs: the radio outbound queue, the pending CANCEL_ALL, the
link notes (R183). -/
def State.radioLine (s : State) : List RadioRecord :=
  s.rli.outbound ++ (if s.ord.cancelPending then [.cancelAll] else []) ++ s.stt.linkNotes.map LinkNote.toRecord

/-- No free radio slot stands beside a waiting CANCEL_ALL or note (R183). -/
def State.radioServed (s : State) : Prop :=
  s.radioFree = 0 ∨ (s.ord.cancelPending = false ∧ s.stt.linkNotes = [])

/-- The entries of a station's lanes from head to tail, PROMPT before BULK before SLACK. -/
def Lanes.inOrder (ls : Lanes) : List Frame :=
  ls.prompt ++ ls.bulk ++ ls.slack

/-- MOD when the quiet-cause set has become `q`: a change, and only a change, sets pending-alert (R151), and moves the
mode between RUNNING and QUIET (R154). -/
def Mod.quietSet (m : Mod) (q : QuietCauses) : Mod :=
  if q = m.causes then m
  else
    { m with
      causes := q
      pendingAlert := true
      mode :=
        if m.mode = .running ∧ q ≠ .empty then .quiet
        else if m.mode = .quiet ∧ q = .empty then .running
        else m.mode }

/-- W of a boundary at `s`: the weights of the active list with the staged weights applied (R55, R11). -/
def State.boundaryWeight (s : State) : Nat :=
  (s.sel.active.map fun i => ((s.station i).stagedWeight.getD (s.station i).weight)).sum

/-- The quantum of station `i` from `pool` at a boundary at `s` (R56, R57). -/
def State.boundaryQuantum (s : State) (pool i : Nat) : Nat :=
  if s.boundaryWeight = 0 then 0
  else pool * ((s.station i).stagedWeight.getD (s.station i).weight) / s.boundaryWeight

/-- What a station record is after a boundary that finds it as `x`, with its new quantum `q` where it is on the active
list (R11, R19, R2). -/
structure StationBegun (cfg : Configuration) (i : Nat) (onActive : Bool) (q : Nat) (x y : Station) : Prop where
  weight : y.weight = x.stagedWeight.getD x.weight ∧ y.stagedWeight = none
  held : y.held = x.stagedHold.getD x.held ∧ y.stagedHold = none
  usedRound : y.usedRound = 0
  kept : y.state = x.state ∧ y.address = x.address ∧ y.rate = x.rate ∧ y.inFlight = x.inFlight
    ∧ y.delivered = x.delivered ∧ y.failed = x.failed
  active : i ≠ 0 → x.state ≠ .vacant → onActive = true →
    y.quantum = q ∧ y.cap = min 65535 (max (2 * q) cfg.orderMaxUs)
      ∧ y.balance = min (y.cap : Int) (x.balance + q)
  others : i ≠ 0 → x.state ≠ .vacant → onActive = false →
    y.quantum = 0 ∧ y.cap = cfg.orderMaxUs ∧ y.balance = min x.balance 0
  group : i = 0 ∨ x.state = .vacant →
    y.quantum = x.quantum ∧ y.cap = x.cap ∧ y.balance = x.balance

/-- What a cohort record is after a boundary of usable airtime `usable` that finds it as `x` (R89). -/
structure CohortBegun (usable : Nat) (x y : Cohort) : Prop where
  span : y.span = x.stagedSpan.getD x.span ∧ y.stagedSpan = none
  capPm : y.capPm = x.stagedCapPm.getD x.capPm ∧ y.stagedCapPm = none
  usedRound : y.usedRound = 0
  enabled : y.span ≠ 0 → y.allot = usable * y.capPm / 1000 ∧ y.budget = ((usable * y.capPm / 1000 : Nat) : Int)
  disabled : y.span = 0 → y.allot = x.allot ∧ y.budget = x.budget

/-- What a round boundary that finds the part as `s` and samples free_now forms (R53 to R59, R72, R88, R89): `t` is the
part behind it. -/
structure RoundBegun (s t : State) (freeNow : Nat) : Prop where
  figures : ∀ pm usable group, pm = clampNat s.mod.config.freeFloorPm 1000 freeNow →
    usable = s.mod.config.roundUs * pm / 1000 → group = usable * s.mod.config.groupPm / 1000 →
    t.rck.figures =
        { freePm := pm, usable := usable, activeLength := s.sel.active.length
          weightSum := s.boundaryWeight
          quantaSum := (s.sel.active.map (s.boundaryQuantum (usable - group))).sum }
      ∧ t.sel.groupAllot = group ∧ t.sel.groupBudget = (group : Int)
      ∧ (∀ i, i < Config.stationCount →
          StationBegun s.mod.config i (decide (i ∈ s.sel.active)) (s.boundaryQuantum (usable - group) i)
            (s.station i) (t.station i))
      ∧ (∀ c, c < Config.cohortCount → CohortBegun usable (s.cohort c) (t.cohort c))
  promptUsed : t.rck.promptUsed = 0
  groupDue : t.sel.groupDue = true
  membershipKept : (∀ c, c < Config.cohortCount → (t.cohort c).span = (s.cohort c).span) →
    ∀ i, i < Config.stationCount → (t.station i).cohort = (s.station i).cohort
  membership : (∃ c, c < Config.cohortCount ∧ (t.cohort c).span ≠ (s.cohort c).span) →
    ∀ i, i < Config.stationCount → (t.station i).cohort = memberOf t.coh.cohorts.rows i
  notes : t.stt.linkNotes = s.stt.linkNotes ∧ t.stt.radioIgnored = s.stt.radioIgnored

/-- The counters, the outstanding list and the loss count behind an accepted outcome `x` of the order `o` that leaves the
orders `left` (R125, R127). -/
def Ord.concluded (d : Ord) (left : List Order) (o : Order) (x : Outcome) : Ord :=
  { d with
    outstanding := left, lossCount := 0
    counters := { d.counters with
      outcomesAccepted := min (d.counters.outcomesAccepted + 1) 4294967295
      retries := min (d.counters.retries + (clampNat 1 32 x.attempts - 1)) 4294967295
      countMismatches := if x.frameCount = o.frames.length then d.counters.countMismatches
        else min (d.counters.countMismatches + 1) 4294967295 } }

/-- Station record `i` behind an accepted outcome `x` with the correction `d`, `delivered` frames delivered and `failed`
not: the correction, the rate, the counters, in_flight (R18, R51, R52, R63). -/
def Station.concluded (cfg : Configuration) (i : Nat) (st : Station) (x : Outcome) (d : Int) (delivered failed : Nat) :
    Station :=
  { st with
    balance := if i = 0 then st.balance
      else clampInt (-(cfg.debtLimitUs : Int)) st.cap (st.balance + d)
    usedRound := min ((st.usedRound : Int) - d).toNat 4294967295
    rate := if i = 0 ∨ x.finalRate = 0 then st.rate
      else clampNat 2 2400 ((3 * st.rate + clampNat 2 2400 x.finalRate + 2) / 4)
    delivered := min (st.delivered + delivered) 4294967295
    failed := min (st.failed + failed) 4294967295
    inFlight := st.inFlight - 1 }

/-- The accounts outside the station records at `u`, behind the correction `d` for the order `o` at `s`: the cohort of the
order's round, the selector budget of its kind and prompt_used (R64, R65, R78). -/
structure AccountsCorrected (s u : State) (o : Order) (d : Int) : Prop where
  cohort : ∀ c, o.cohort = some c → c < 32 → o.round = s.rck.round → (s.cohort c).span ≠ 0 →
    u.cohort c = { s.cohort c with
      budget := clampInt (-65535) (s.cohort c).allot ((s.cohort c).budget + d)
      usedRound := min (((s.cohort c).usedRound : Int) - d).toNat 4294967295 }
  cohorts : ∀ c, o.cohort ≠ some c ∨ o.round ≠ s.rck.round ∨ (s.cohort c).span = 0 → u.cohort c = s.cohort c
  promptBudget : u.sel.promptBudget = if o.kind = .prompt ∧ o.promptPeriod = s.rck.promptPeriod
    then clampInt (-65535) s.sel.promptAllot (s.sel.promptBudget + d) else s.sel.promptBudget
  groupBudget : u.sel.groupBudget = if o.kind = .group ∧ o.round = s.rck.round
    then clampInt (-65535) s.sel.groupAllot (s.sel.groupBudget + d) else s.sel.groupBudget
  clocks : u.rck = { s.rck with
    promptUsed := if o.kind = .prompt then min ((s.rck.promptUsed : Int) - d).toNat 4294967295
      else s.rck.promptUsed }

/-- The range that a span names holds the index `i`: its size is the value of the span's lowest set bit, at position 0 to
9, and its base is the span less that size (R85). -/
def InSpan (span i : Nat) : Prop :=
  ∃ p, p < 10 ∧ span.testBit p = true ∧ (∀ q, q < p → span.testBit q = false)
    ∧ span - 2 ^ p ≤ i ∧ i < span - 2 ^ p + 2 ^ p

/-- A window slot is free and the mode is RUNNING (R104). -/
def State.RunOpen (s : State) : Prop :=
  s.mod.mode = .running ∧ s.ord.outstanding.length < s.mod.config.window

/-- The group step finds station 0 (R107). -/
def State.GroupOpen (s : State) : Prop :=
  s.sel.groupDue = true ∧ s.lane 0 .bulk ≠ [] ∧ 0 < s.sel.groupBudget

/-- The prompt step finds no station (R109). -/
def State.PromptShut (s : State) : Prop :=
  s.sel.promptBudget ≤ 0 ∨ ∀ i ∈ s.sel.prompt, (s.station i).held = true

/-- Station `i` passes the tests of the fair pass, or of the spill pass with its own bound (R110, R111). -/
def State.PassesAbove (s : State) (bound : Int) (i : Nat) : Prop :=
  (s.station i).held = false ∧ bound < (s.station i).balance
    ∧ (∀ c, (s.station i).cohort = some c → 0 < (s.cohort c).budget) ∧ (s.lanesOf i).allEmpty = false

end Sys2Proof.Machine
end

