-- ==== Sys2Proof/Certificates/Slice0/Obligations.lean ====
section
/-!
DEFINITION. The statements for the provers. Each speaks of what `exec` or `step` does; the hypotheses are on the state
and the operands alone. Log entries are in notes/assumptions.
-/

section
open Sys2Proof Sys2Proof.Machine

/-! ## Steps -/

/-- A step with a command at the front of the queue is that command on the state with the queue's rest; on an empty
queue the part takes the first of its own due events, and otherwise one microsecond passes while device time runs (R68;
that an empty queue does this is the model's choice, log entry 3). -/
def Obligations.StepTakesTheFrontCommand : Prop :=
  (∀ (s : State) (c : Instr) (rest : List Instr),
      s.pending = c :: rest → step s = exec c { s with pending := rest })
  ∧ ∀ s : State, s.pending = [] →
    (∀ c, s.ownEvent = some c → step s = exec c s)
      ∧ (s.ownEvent = none → s.rck.timeRunning = true →
          step s = .next { s with rck := { s.rck with deviceTime := s.rck.deviceTime + 1 } })
      ∧ (s.ownEvent = none → s.rck.timeRunning = false → step s = .next s)

/-- PIN_RESET and RESET_N_RELEASE: every block takes its pin-reset values, every other command changes nothing while
RESET_N is asserted but that CL_SDO returns filler for the bytes clocked, and at its release the part is as State.reset
says (R168, R173, R187, R190, log entries 12 and 26). -/
def Obligations.PinResetClearsThePart : Prop :=
  (∀ s : State, exec .pinReset s = .next { State.pinResetValues true with pending := s.pending })
    ∧ (∀ (s : State) (c : Instr), s.resetN = true → c ≠ .pinReset → c ≠ .resetNRelease →
      (∀ b, c ≠ .directionByte b) → (∀ bytes, c ≠ .writeTransaction bytes) → (∀ n, c ≠ .readTransaction n) →
      (∀ n, c ≠ .idleTransaction n) → exec c s = .next s)
    ∧ (∀ (s : State) (b : Byte), s.resetN = true →
      exec (.directionByte b) s = .next { s with cli := { s.cli with sdo := [0xFF#8] } })
    ∧ (∀ (s : State) (bytes : List Byte), s.resetN = true →
      exec (.writeTransaction bytes) s = .next { s with cli := { s.cli with
        sdo := List.replicate (bytes.length + 1) 0xFF#8 } })
    ∧ (∀ (s : State) (n : Nat), s.resetN = true →
      exec (.readTransaction n) s = .next { s with cli := { s.cli with sdo := List.replicate (n + 1) 0xFF#8 } }
      ∧ exec (.idleTransaction n) s = .next { s with cli := { s.cli with
        sdo := List.replicate (n + 1) 0xFF#8 } })
    ∧ (∀ s : State, exec .resetNRelease s = .next { s with resetN := false })
    ∧ (∀ q : List Instr, exec .resetNRelease { State.pinResetValues true with pending := q }
        = .next { State.reset with pending := q })
    ∧ State.reset.mod.mode = .halted ∧ State.reset.mod.config = .default ∧ State.reset.mod.configValid = false
    ∧ State.reset.mod.causes = .empty ∧ State.reset.mod.pendingAlert = false
    ∧ State.reset.rck.deviceTime = 0 ∧ State.reset.rck.timeRunning = false
    ∧ (State.pinResetValues true).partRdy = false ∧ State.reset.partRdy = true
    ∧ State.reset.attnLevel = .high ∧ State.reset.rli.rlTx = [.idle]

/-! ## Control Link transactions -/

/-- DIRECTION_BYTE: the byte decides the transaction, READY is answered while the inbound queue holds fewer than 8
records, and a READ fixes the head of the outbound queue or the NONE marker (R173 to R175); a further direction byte
inside a transaction changes nothing (log entry 1). -/
def Obligations.DirectionByteDecidesTheTransaction : Prop :=
  ∀ (s : State) (b : Byte), s.resetN = false →
    (s.cli.transaction = none →
      exec (.directionByte b) s = .next { s with cli := { s.cli with
        sdo := [0xFF#8]
        transaction := some
          (if b = 0xC3#8 then .write (decide (s.cli.inbound.length < 8))
          else if b = 0x3C#8 then .read s.cli.outbound.head?
          else .idle) } })
    ∧ (s.cli.transaction ≠ none → exec (.directionByte b) s = .next s)

/-- WRITE_TRANSACTION: a READY record joins the inbound queue with its declared body or marked short, or is counted as
short without a complete header; a NOT_READY one is discarded. What a pin reset has left of one returns filler (R187),
and inside a transaction of another kind nothing happens (R174, R190, log entries 1 and 12). -/
def Obligations.WriteTransactionReceivesARecord : Prop :=
  ∀ (s : State) (bytes : List Byte), s.resetN = false →
    (s.cli.transaction = some (.write false) →
      exec (.writeTransaction bytes) s = .next { s with cli := { s.cli with
        transaction := none
        sdo := 0xFF#8 :: (0xA0#8 :: List.replicate bytes.length 0xFF#8).take bytes.length } })
    ∧ (s.cli.transaction = some (.write true) → bytes.length < 4 →
      exec (.writeTransaction bytes) s = .next { s with cli := { s.cli with
        transaction := none
        sdo := 0xFF#8 :: (0xA1#8 :: List.replicate bytes.length 0xFF#8).take bytes.length
        clShortRecords := min (s.cli.clShortRecords + 1) 4294967295 } })
    ∧ (∀ (typ tag l0 l1 : Byte) (rest : List Byte), s.cli.transaction = some (.write true) →
      bytes = typ :: tag :: l0 :: l1 :: rest →
      exec (.writeTransaction bytes) s = .next { s with cli := { s.cli with
        transaction := none
        sdo := 0xFF#8 :: (0xA1#8 :: List.replicate bytes.length 0xFF#8).take bytes.length
        inbound := s.cli.inbound ++
          [if 512 < l0.toNat + 256 * l1.toNat then { typ, tag, body := rest.take 512, short := true }
           else
            { typ, tag, body := rest.take (l0.toNat + 256 * l1.toNat)
              short := decide (rest.length < l0.toNat + 256 * l1.toNat) }] } })
    ∧ (s.cli.transaction = none →
      exec (.writeTransaction bytes) s = .next { s with cli := { s.cli with
        sdo := List.replicate (bytes.length + 1) 0xFF#8 } })
    ∧ (s.cli.transaction ≠ none → (∀ ready, s.cli.transaction ≠ some (.write ready)) →
      exec (.writeTransaction bytes) s = .next s)

/-- READ_TRANSACTION: the record fixed for it, or the NONE marker, is driven and then filler; the head record leaves
the outbound queue only if every byte of it was clocked out. IDLE_TRANSACTION: filler is driven and cl_bad_direction is
counted. What a pin reset has left of a transaction returns filler (R187), and inside a transaction of another kind
neither does anything (R173, R175, R190, log entries 1, 11 and 12). -/
def Obligations.ReadAndIdleTransactionsEnd : Prop :=
  ∀ (s : State) (n : Nat), s.resetN = false →
    (∀ r : OutRecord, s.cli.transaction = some (.read (some r)) →
      exec (.readTransaction n) s = .next { s with cli := { s.cli with
        transaction := none
        sdo := 0xFF#8 :: (r.bytes ++ List.replicate n 0xFF#8).take n
        outbound := if r.bytes.length ≤ n then s.cli.outbound.drop 1 else s.cli.outbound } })
    ∧ (s.cli.transaction = some (.read none) →
      exec (.readTransaction n) s = .next { s with cli := { s.cli with
        transaction := none
        sdo := 0xFF#8 :: ([0#8, 0#8, 0#8, 0#8] ++ List.replicate n 0xFF#8).take n } })
    ∧ (s.cli.transaction ≠ none → (∀ r, s.cli.transaction ≠ some (.read r)) →
      exec (.readTransaction n) s = .next s)
    ∧ (s.cli.transaction = some .idle →
      exec (.idleTransaction n) s = .next { s with cli := { s.cli with
        transaction := none
        sdo := 0xFF#8 :: List.replicate n 0xFF#8
        clBadDirection := min (s.cli.clBadDirection + 1) 4294967295 } })
    ∧ (s.cli.transaction ≠ none → s.cli.transaction ≠ some .idle → exec (.idleTransaction n) s = .next s)
    ∧ (s.cli.transaction = none →
      exec (.readTransaction n) s = .next { s with cli := { s.cli with sdo := List.replicate (n + 1) 0xFF#8 } }
      ∧ exec (.idleTransaction n) s = .next { s with cli := { s.cli with
        sdo := List.replicate (n + 1) 0xFF#8 } })

/-! ## Dispatch of host commands -/

/-- The CLI's own checks (R177): a type that names no command is answered with a REJECT, and a short record or a body
length that does not match its type with BAD_LENGTH; nothing but the link's queues changes. -/
def Obligations.CliChecksComeFirst : Prop :=
  ∀ (s : State) (r : HostRecord) (rest : List HostRecord), s.resetN = false → s.sel.choice = none →
    s.cli.inbound = r :: rest → s.cli.outbound.length < 16 →
    (commandOf r.typ = none →
      exec .unknownType s = .next { s with
        cli := Cli.pushed { s.cli with inbound := rest } s.rck.deviceTime s.mod.attnOperation (.reject r.tag) })
    ∧ (∀ c, commandOf r.typ = some c → r.short = true ∨ bodyLengthOk c r.body = false →
      exec (dispatchEvent r.typ) s = .next { s with cli := s.answered r rest (.code .badLength) })

/-- Every dispatched command leaves the inbound queue and is answered by exactly one reply with its type and tag, which
enters the tail of the outbound queue; a command waits while that queue is full (R177), and a dispatch row does nothing
unless its own command stands at the head (the model's choice, log entry 1). -/
def Obligations.EveryCommandIsAnsweredOnce : Prop :=
  (∀ (s : State) (r : HostRecord) (rest : List HostRecord) (c : Command), s.resetN = false →
    s.cli.inbound = r :: rest → s.cli.outbound.length < 16 → commandOf r.typ = some c →
    ∃ (t : State) (reply : Reply), exec (dispatchEvent r.typ) s = .next t
      ∧ t.cli.inbound = rest
      ∧ t.cli.outbound = s.cli.outbound ++ [.reply r.typ r.tag reply]
      ∧ t.cli.transaction = s.cli.transaction ∧ t.cli.sdo = s.cli.sdo)
  ∧ ∀ (s : State) (typ : Byte), s.resetN = false →
    (∀ r rest, s.cli.inbound = r :: rest →
      16 ≤ s.cli.outbound.length ∨ dispatchEvent r.typ ≠ dispatchEvent typ) →
    exec (dispatchEvent typ) s = .next s

/-- The table of R158: in the modes that refuse a command it is answered BAD_STATE and nothing else changes. -/
def Obligations.CommandsRefusedByMode : Prop :=
  ∀ (s : State) (c : Command) (r : HostRecord) (rest : List HostRecord), s.Heads c r rest →
    modeRefuses c s.mod.mode = true →
    exec (dispatchEvent r.typ) s = .next { s with cli := s.answered r rest (.code .badState) }

/-- Whatever the reason, a command that is refused changes nothing but the link's queues (R4, R7, R9, R27, R38, R86,
R160, R163, R164, R166, R177). -/
def Obligations.RefusedCommandsChangeNothing : Prop :=
  ∀ (s : State) (c : Command) (r : HostRecord) (rest : List HostRecord), s.Heads c r rest →
    ∃ t reply, exec (dispatchEvent r.typ) s = .next t
      ∧ t.cli.outbound = s.cli.outbound ++ [.reply r.typ r.tag reply]
      ∧ ∀ k, reply = .code k → k ≠ .ok → t = { s with cli := s.answered r rest (.code k) }

/-- A choice that waits for its build is followed through, by ORDER_BUILD after ORDER_BUILD until none waits, before any
other event that can reach SEL is taken; an expiry of the chosen lane alone is taken first, with the choice still waiting
behind it (R37, R105, R106, log entry 5). -/
def Obligations.ChoicesAreFollowedThroughFirst : Prop :=
  ∀ s : State,
    s.settle.sel.choice = none ∧ (s.sel.choice = none → s.settle = s)
    ∧ (∀ u, s.ModeInv → s.OrderInv → s.ListInv → s.resetN = false → s.sel.choice ≠ none →
        exec .orderBuild s = .next u → s.settle = u.settle)
    ∧ (∀ r rest, s.resetN = false → s.cli.inbound = r :: rest → s.cli.outbound.length < 16 →
        exec (dispatchEvent r.typ) s = exec (dispatchEvent r.typ) s.settle)
    ∧ (∀ r rest, s.resetN = false → s.rli.inbound = r :: rest →
        exec (deliveryEvent r) s = exec (deliveryEvent r) s.settle)
    ∧ (s.resetN = false → s.timeoutDue ≠ none → exec .orderTimeout s = exec .orderTimeout s.settle)
    ∧ (s.resetN = false → s.roundDue = true → exec .roundBoundary s = exec .roundBoundary s.settle)
    ∧ (s.resetN = false → s.promptDue = true → exec .promptBoundary s = exec .promptBoundary s.settle)
    ∧ (∀ c e es, s.resetN = false → s.sel.choice = some c → s.fpl.expiry = e :: es →
        passed s.rck.deviceTime e.deadline = true →
        (e.station ≠ c.station ∨ e.lane ≠ c.lane → exec .frameExpiry s = exec .frameExpiry s.settle)
        ∧ (e.station = c.station → e.lane = c.lane →
          ∃ t, exec .frameExpiry s = .next t ∧ t.sel.choice = some c
            ∧ exec .frameExpiry { s with sel := { s.sel with choice := none } }
              = .next { t with sel := { t.sel with choice := none } }))

/-! ## CONFIGURE, START, STOP, ABORT, RESET, QUIET, RESUME, STATUS -/

/-- CONFIGURE in HALTED: the record is written, device time starts from 0, station 0 becomes IDLE, the mode becomes READY
with pending-alert set, and the ATTN backlog starts at 0 behind the reply (R2, R68, R160, R161, R179). That medium_ignored
keeps what it counted in HALTED, where the table of R157 shows 0, is the model's reading (log entry 32). -/
def Obligations.ConfigureLeavesHalted : Prop :=
  ∀ (s : State) (r : HostRecord) (rest : List HostRecord) (raw : RawConfiguration),
    s.Heads .configure r rest → s.mod.mode = .halted → s.mod.configValid = false →
    raw = parseConfigure r.body → raw.useDefaults = true ∨ raw.valid = true → s.fpl.freeEntries = 4096 →
    exec .configure s = .next { s with
      cli := { s.answered r rest (.code .ok) with backlog := 0, pulse := none }
      mod := { s.mod with
        mode := .ready, config := raw.toConfiguration, configValid := true, pendingAlert := true }
      rck := { s.rck with deviceTime := 0, timeRunning := true }
      stt := { s.stt with stations := s.stt.stations.modify 0 fun x =>
        { x with
          state := .idle, address := 0, weight := 0, rate := raw.toConfiguration.groupRate
          balance := 0, quantum := 0, cap := raw.toConfiguration.orderMaxUs } } }

/-- CONFIGURE in READY: the record is written, station 0's rate and every cap are set anew and every balance is clamped
to the new bounds; a change between LEVEL and PULSE operation ends the pulse being driven and the backlog starts at 0
behind the reply; nothing else changes (R20, R161, R179, log entry 18). -/
def Obligations.ConfigureInReadyReclamps : Prop :=
  ∀ (s : State) (r : HostRecord) (rest : List HostRecord) (raw : RawConfiguration) (cfg : Configuration),
    s.Heads .configure r rest → s.mod.mode = .ready → raw = parseConfigure r.body →
    cfg = raw.toConfiguration → raw.useDefaults = true ∨ raw.valid = true → s.fpl.freeEntries = 4096 →
    ∃ t, exec .configure s = .next t
      ∧ t.mod = { s.mod with config := cfg, configValid := true }
      ∧ (∀ i, i < 512 → ∃ cap : Nat,
          cap = (if i = 0 then cfg.orderMaxUs else if (s.station i).state = .vacant then (s.station i).cap
            else min 65535 (max (2 * (s.station i).quantum) cfg.orderMaxUs))
          ∧ t.station i = { s.station i with
              rate := if i = 0 then cfg.groupRate else (s.station i).rate
              cap := cap
              balance := clampInt (-(cfg.debtLimitUs : Int)) cap (s.station i).balance })
      ∧ t.stt.linkNotes = s.stt.linkNotes ∧ t.stt.radioIgnored = s.stt.radioIgnored
      ∧ t.cli = (if s.mod.configValid = true ∧ cfg.attnMode = s.mod.config.attnMode
          then s.answered r rest (.code .ok)
          else { s.answered r rest (.code .ok) with backlog := 0, pulse := none })
      ∧ t.rli = s.rli ∧ t.fpl = s.fpl ∧ t.rck = s.rck ∧ t.coh = s.coh ∧ t.sel = s.sel ∧ t.ord = s.ord
      ∧ t.mgd = s.mgd ∧ t.resetN = s.resetN ∧ t.pending = s.pending

/-- CONFIGURE in HALTED or READY: fields out of range without USE_DEFAULTS are refused with BAD_RANGE, and otherwise an
entry that is not FREE with BAD_STATE. The fields are in range exactly as R159 says, and the record takes its defaults
with USE_DEFAULTS set and the values carried otherwise (R159, R160). -/
def Obligations.ConfigureRefusals : Prop :=
  ∀ (s : State) (r : HostRecord) (rest : List HostRecord) (raw : RawConfiguration),
    s.Heads .configure r rest → s.mod.mode = .halted ∨ s.mod.mode = .ready → raw = parseConfigure r.body →
    (raw.useDefaults = false → raw.valid = false →
      exec .configure s = .next { s with cli := s.answered r rest (.code .badRange) })
    ∧ (raw.useDefaults = true ∨ raw.valid = true → s.fpl.freeEntries ≠ 4096 →
      exec .configure s = .next { s with cli := s.answered r rest (.code .badState) })
    ∧ (raw.useDefaults = true → raw.toConfiguration = Configuration.default)
    ∧ (raw.useDefaults = true ∨ raw.valid = true → raw.toConfiguration.inRanges = true)
    ∧ (raw.valid = true ↔
      (10000 ≤ raw.roundUs ∧ raw.roundUs ≤ 250000)
      ∧ (2000 ≤ raw.promptPeriodUs ∧ raw.promptPeriodUs ≤ 50000 ∧ raw.promptPeriodUs ≤ raw.roundUs)
      ∧ raw.promptSync ≤ 1 ∧ raw.promptPm ≤ 500 ∧ raw.groupPm ≤ 300
      ∧ (100 ≤ raw.freeFloorPm ∧ raw.freeFloorPm ≤ 1000)
      ∧ (raw.freeFloorPm ≤ raw.freeInitialPm ∧ raw.freeInitialPm ≤ 1000)
      ∧ raw.orderOverheadUs ≤ 500 ∧ raw.subframeUs ≤ 50 ∧ (500 ≤ raw.orderMaxUs ∧ raw.orderMaxUs ≤ 5000)
      ∧ (1 ≤ raw.orderMaxFrames ∧ raw.orderMaxFrames ≤ 16) ∧ (1 ≤ raw.window ∧ raw.window ≤ 4)
      ∧ (1 ≤ raw.orderTimeoutMs ∧ raw.orderTimeoutMs ≤ 255) ∧ (1 ≤ raw.lossLimit ∧ raw.lossLimit ≤ 15)
      ∧ raw.requeueMax ≤ 3 ∧ (4 ≤ raw.laneLimit ∧ raw.laneLimit ≤ 256) ∧ raw.debtLimitUs ≤ 65535 ∧ raw.spill ≤ 1
      ∧ raw.reportEvery ≤ 16 ∧ raw.blankMs ≤ 2000 ∧ (2 ≤ raw.groupRate ∧ raw.groupRate ≤ 2400)
      ∧ (2 ≤ raw.defaultRate ∧ raw.defaultRate ≤ 2400) ∧ raw.attnMode ≤ 1 ∧ raw.attnActive ≤ 1)
    ∧ (raw.useDefaults = false → raw.toConfiguration =
      { roundUs := raw.roundUs, promptPeriodUs := raw.promptPeriodUs, promptSync := raw.promptSync == 1
        promptPm := raw.promptPm, groupPm := raw.groupPm, freeFloorPm := raw.freeFloorPm
        freeInitialPm := raw.freeInitialPm, orderOverheadUs := raw.orderOverheadUs, subframeUs := raw.subframeUs
        orderMaxUs := raw.orderMaxUs, orderMaxFrames := raw.orderMaxFrames, window := raw.window
        orderTimeoutMs := raw.orderTimeoutMs, lossLimit := raw.lossLimit, requeueMax := raw.requeueMax
        laneLimit := raw.laneLimit, debtLimitUs := raw.debtLimitUs, spill := raw.spill == 1
        reportEvery := raw.reportEvery, blankMs := raw.blankMs, groupRate := raw.groupRate
        defaultRate := raw.defaultRate, attnMode := if raw.attnMode = 1 then .pulse else .level
        attnActive := if raw.attnActive = 1 then .high else .low })

/-- START in READY: free_now becomes free_initial_pm, both clocks start at boundary 0, which samples it and forms the
round and the prompt allotment, the mode becomes RUNNING, or QUIET with a cause present, and a selection run follows, which
QUIET does not open (R70, R73, R76, R163). -/
def Obligations.StartMakesBoundaryZero : Prop :=
  ∀ (s : State) (r : HostRecord) (rest : List HostRecord) (cfg : Configuration) (pm : Nat),
    s.Heads .start r rest → s.mod.mode = .ready → cfg = s.mod.config →
    pm = clampNat cfg.freeFloorPm 1000 cfg.freeInitialPm →
    ∃ u : State, exec .start s = .next u.selectionRun
      ∧ u.cli = s.answered r rest (.code .ok)
      ∧ u.mod = { s.mod with mode := if s.mod.causes = .empty then .running else .quiet, pendingAlert := true }
      ∧ u.mgd = { s.mgd with freeNow := cfg.freeInitialPm }
      ∧ RoundBegun s u cfg.freeInitialPm
      ∧ u.rck = { s.rck with
          clocksRunning := true, round := 0, lastRoundAt := s.rck.deviceTime
          nextRoundAt := s.rck.deviceTime + BitVec.ofNat 32 cfg.roundUs
          promptPeriod := 0, nextPromptAt := s.rck.deviceTime + BitVec.ofNat 32 cfg.promptPeriodUs
          figures := u.rck.figures, promptUsed := 0, postscaler := 0 }
      ∧ u.sel = { s.sel with
          groupDue := true, groupAllot := u.sel.groupAllot, groupBudget := u.sel.groupBudget
          promptAllot := cfg.promptPeriodUs * pm * cfg.promptPm / 1000000
          promptBudget := ((cfg.promptPeriodUs * pm * cfg.promptPm / 1000000 : Nat) : Int) }
      ∧ (s.mod.causes ≠ .empty → u.selectionRun = u)
      ∧ u.rli = s.rli ∧ u.fpl = s.fpl ∧ u.ord = s.ord ∧ u.resetN = s.resetN ∧ u.pending = s.pending

/-- STOP outside RUNNING and QUIET is refused; with orders outstanding the mode becomes DRAINING and nothing else
changes; with none the clocks stop, every staged change is applied and the mode becomes READY at once (R11, R90, R164,
R165). That the stopped clocks keep their next boundary times is the model's choice (log entry 31). -/
def Obligations.StopDrainsOrEnds : Prop :=
  ∀ (s : State) (r : HostRecord) (rest : List HostRecord),
    s.Heads .stop r rest →
    (s.mod.mode ≠ .running → s.mod.mode ≠ .quiet →
      exec .stop s = .next { s with cli := s.answered r rest (.code .badState) })
    ∧ (s.mod.mode = .running ∨ s.mod.mode = .quiet → s.ord.outstanding ≠ [] →
      exec .stop s = .next { s with
        cli := s.answered r rest (.code .ok), mod := { s.mod with mode := .draining, pendingAlert := true } })
    ∧ (s.mod.mode = .running ∨ s.mod.mode = .quiet → s.ord.outstanding = [] →
      ∃ t, exec .stop s = .next t
        ∧ t.cli = s.answered r rest (.code .ok)
        ∧ t.mod = { s.mod with mode := .ready, pendingAlert := true }
        ∧ t.rck = { s.rck with clocksRunning := false }
        ∧ (∀ i, i < 512 → t.station i = { s.station i with
            weight := (s.station i).stagedWeight.getD (s.station i).weight, stagedWeight := none
            held := (s.station i).stagedHold.getD (s.station i).held, stagedHold := none
            cohort := (t.station i).cohort })
        ∧ (∀ c, c < 32 → t.cohort c = { s.cohort c with
            span := (s.cohort c).stagedSpan.getD (s.cohort c).span, stagedSpan := none
            capPm := (s.cohort c).stagedCapPm.getD (s.cohort c).capPm, stagedCapPm := none })
        ∧ ((∀ c, c < 32 → (t.cohort c).span = (s.cohort c).span) →
            ∀ i, i < 512 → (t.station i).cohort = (s.station i).cohort)
        ∧ ((∃ c, c < 32 ∧ (t.cohort c).span ≠ (s.cohort c).span) →
            ∀ i, i < 512 → (t.station i).cohort = memberOf t.coh.cohorts.rows i)
        ∧ t.stt.linkNotes = s.stt.linkNotes ∧ t.stt.radioIgnored = s.stt.radioIgnored
        ∧ t.rli = s.rli ∧ t.fpl = s.fpl ∧ t.sel = s.sel ∧ t.ord = s.ord ∧ t.mgd = s.mgd
        ∧ t.resetN = s.resetN ∧ t.pending = s.pending)

/-- ABORT: every outstanding order is cancelled in issue order, its id quarantined and its frames returned ABORTED; a
LEAVING station's last order makes it VACANT with an UNBIND in line, and a CANCEL_ALL is placed or pending ahead of what
waits. The clocks stop, every staged change is applied, and the mode becomes READY; no account, budget or used_round is
corrected (R8, R45, R66, R77, R90, R137, R166, R183, R187). That the stopped clocks keep their next boundary times is the
model's choice (log entry 31). -/
def Obligations.AbortCancelsTheOrders : Prop :=
  ∀ (s : State) (r : HostRecord) (rest : List HostRecord) (gone : List Nat) (line : List RadioRecord),
    s.Heads .abort r rest → s.mod.mode = .running ∨ s.mod.mode = .quiet ∨ s.mod.mode = .draining →
    s.ord.quarantine.length ≤ 8 →
    gone = (s.ord.outstanding.map Order.station).reverse.eraseDups.reverse.filter
      (fun i => (s.station i).state == .leaving) →
    line = s.radioLine ++ gone.map .unbind →
    ∃ t, exec .abort s = .next t
      ∧ t.cli = s.answered r rest (.code .ok)
      ∧ t.mod = { s.mod with mode := .ready, pendingAlert := true }
      ∧ t.rck = { s.rck with clocksRunning := false }
      ∧ t.fpl = { s.fpl with returnList := s.fpl.returnList
          ++ s.ord.outstanding.flatMap (fun o => o.frames.map (fun f => ⟨f, .aborted⟩)) }
      ∧ t.ord.outstanding = []
      ∧ t.ord.quarantine = (s.ord.quarantine ++ s.ord.outstanding.map Order.id).drop
          (s.ord.quarantine.length + s.ord.outstanding.length - 8)
      ∧ t.ord.nextId = s.ord.nextId ∧ t.ord.lossCount = s.ord.lossCount
      ∧ t.ord.counters = { s.ord.counters with
          ordersCancelled := if s.ord.outstanding = [] then s.ord.counters.ordersCancelled
            else min (s.ord.counters.ordersCancelled + s.ord.outstanding.length) 4294967295
          quarantineEvictions := if s.ord.quarantine.length + s.ord.outstanding.length ≤ 8
            then s.ord.counters.quarantineEvictions
            else min (s.ord.counters.quarantineEvictions
              + (s.ord.quarantine.length + s.ord.outstanding.length - 8)) 4294967295 }
      ∧ ((t.ord.cancelPending = true ∧ t.radioFree = 0)
          ∨ (t.ord.cancelPending = false ∧ t.rli.outbound.getLast? = some .cancelAll))
      ∧ (gone = [] → t.stt.linkNotes = s.stt.linkNotes
          ∧ t.rli.outbound = s.rli.outbound ++ (if s.radioFree = 0 then [] else [.cancelAll]))
      ∧ (gone ≠ [] → (∀ i ∈ gone, (s.station i).inFlight = s.ordersNaming i) →
          t.radioLine = (if s.ord.cancelPending = true ∧ s.radioFree = 0 then line
            else line.take (max s.rli.outbound.length 8) ++ [.cancelAll]
              ++ line.drop (max s.rli.outbound.length 8))
          ∧ t.rli.outbound = t.radioLine.take (max s.rli.outbound.length 8))
      ∧ (∀ i, i < 512 → t.station i =
          if (s.station i).state = .leaving ∧ 0 < s.ordersNaming i ∧ (s.station i).inFlight ≤ s.ordersNaming i
          then .cleared (t.station i).cohort
          else { s.station i with
            weight := (s.station i).stagedWeight.getD (s.station i).weight, stagedWeight := none
            held := (s.station i).stagedHold.getD (s.station i).held, stagedHold := none
            inFlight := (s.station i).inFlight - s.ordersNaming i, cohort := (t.station i).cohort })
      ∧ (∀ c, c < 32 → t.cohort c = { s.cohort c with
          span := (s.cohort c).stagedSpan.getD (s.cohort c).span, stagedSpan := none
          capPm := (s.cohort c).stagedCapPm.getD (s.cohort c).capPm, stagedCapPm := none })
      ∧ ((∀ c, c < 32 → (t.cohort c).span = (s.cohort c).span) →
          ∀ i, i < 512 → (t.station i).cohort = (s.station i).cohort)
      ∧ ((∃ c, c < 32 ∧ (t.cohort c).span ≠ (s.cohort c).span) →
          ∀ i, i < 512 → (t.station i).cohort = memberOf t.coh.cohorts.rows i)
      ∧ t.stt.radioIgnored = s.stt.radioIgnored ∧ { t.rli with outbound := s.rli.outbound } = s.rli
      ∧ t.sel = s.sel ∧ t.mgd = s.mgd ∧ t.resetN = s.resetN ∧ t.pending = s.pending

/-- RESET: the orders are cancelled and the queued frames flushed in station and lane order, off the expiry list too. What
stands in line for the MAC is kept, with an UNBIND behind it for a LEAVING station whose last order this was, which is
VACANT, a new CANCEL_ALL behind the records of the queue, and a POLL_EMPTY for each station on the poll list that has none
queued. The quarantine list holds only the cancelled ids, the accounts, lists, staged changes, counters and quiet causes
are cleared, the clocks stop, and the mode becomes READY (R6, R8, R21, R46, R83, R94, R116, R138, R156, R167, R183, R187).
That the stopped clocks keep their next boundary times is the model's choice (log entry 31). -/
def Obligations.ResetCleansThePart : Prop :=
  ∀ (s : State) (r : HostRecord) (rest : List HostRecord) (gone polled : List Nat) (line : List RadioRecord),
    s.Heads .reset r rest → s.mod.mode ≠ .halted →
    gone = (s.ord.outstanding.map Order.station).reverse.eraseDups.reverse.filter
      (fun i => (s.station i).state == .leaving) →
    polled = (List.range 512).filter (fun i => decide (i ≠ 0 ∧ i ∈ s.sel.poll ∧ (s.station i).state = .dozing
      ∧ (s.lanesOf i).allEmpty = false)) →
    line = s.radioLine ++ gone.map .unbind →
    ∃ t, exec .reset s = .next t
      ∧ t.cli = { s.answered r rest (.code .ok) with clShortRecords := 0, clBadDirection := 0 }
      ∧ t.mod = { s.mod with
          mode := .ready, causes := .empty, alertsSent := 0
          pendingAlert := s.mod.pendingAlert || decide (s.mod.mode ≠ .ready) || decide (s.mod.causes ≠ .empty) }
      ∧ t.fpl.returnList = s.fpl.returnList
          ++ s.ord.outstanding.flatMap (fun o => o.frames.map (fun f => ⟨f, .aborted⟩))
          ++ (List.range 512).flatMap (fun i => (s.lanesOf i).inOrder.map (fun f => ⟨f, .flushed⟩))
      ∧ (∀ i, t.lanesOf i = .empty)
      ∧ t.fpl.expiry = s.fpl.expiry.filter (fun e => !((List.range 512).flatMap fun i => (s.lanesOf i).inOrder).any
          fun f => f.sequence == e.sequence)
      ∧ ((∀ e ∈ s.fpl.expiry, ∃ i, i < 512 ∧ ∃ f ∈ (s.lanesOf i).inOrder, f.sequence = e.sequence) →
          t.fpl.expiry = [])
      ∧ t.fpl.freeEntries = s.fpl.freeEntries ∧ t.fpl.nextSequence = s.fpl.nextSequence
      ∧ t.fpl.framesAccepted = 0 ∧ t.fpl.framesRefused = 0 ∧ t.fpl.framesRequeued = 0
      ∧ t.fpl.framesExpired = 0 ∧ t.fpl.tokenNotices = 0
      ∧ t.ord.outstanding = [] ∧ t.ord.nextId = s.ord.nextId ∧ t.ord.lossCount = 0 ∧ t.ord.counters = .zero
      ∧ t.ord.quarantine = (s.ord.outstanding.map Order.id).drop (s.ord.outstanding.length - 8)
      ∧ ((t.ord.cancelPending = true ∧ t.radioFree = 0)
          ∨ (t.ord.cancelPending = false ∧ .cancelAll ∈ t.rli.outbound))
      ∧ (∀ x ∈ s.radioLine, x ∈ t.radioLine)
      ∧ (∃ told : List Nat, told.Sublist polled
          ∧ (∀ i ∈ polled, i ∉ told → LinkNote.pollEmpty i ∈ s.stt.linkNotes)
          ∧ (s.radioFree = 0 → ∀ i ∈ told, LinkNote.pollEmpty i ∉ s.stt.linkNotes)
          ∧ (gone = [] →
            t.radioLine = s.rli.outbound ++ [.cancelAll] ++ s.stt.linkNotes.map LinkNote.toRecord
              ++ told.map .pollEmpty)
          ∧ (gone = [] → told = [] → t.stt.linkNotes = s.stt.linkNotes
            ∧ t.rli.outbound = s.rli.outbound ++ (if s.radioFree = 0 then [] else [.cancelAll]))
          ∧ (gone ≠ [] → (∀ i ∈ gone, (s.station i).inFlight = s.ordersNaming i) →
            t.radioLine = (if s.ord.cancelPending = true ∧ s.radioFree = 0 then line
              else line.take (max s.rli.outbound.length 8) ++ [.cancelAll]
                ++ line.drop (max s.rli.outbound.length 8)) ++ told.map .pollEmpty)
          ∧ (told ≠ [] ∨ gone ≠ [] → (∀ i ∈ gone, (s.station i).inFlight = s.ordersNaming i) →
            t.rli.outbound = t.radioLine.take (max s.rli.outbound.length 8)))
      ∧ (∀ i, i < 512 → (s.station i).state = .leaving → 0 < s.ordersNaming i →
          (s.station i).inFlight ≤ s.ordersNaming i →
          t.station i = .cleared (s.station i).cohort ∧ .unbind i ∈ t.radioLine)
      ∧ (∀ i, i < 512 → (s.station i).state = .vacant → s.ordersNaming i = 0 → t.station i = s.station i)
      ∧ (∀ i, i < 512 → (s.station i).state ≠ .vacant → (i = 0 → (s.station i).state ≠ .backlogged) →
          ((s.station i).state = .leaving → s.ordersNaming i = 0 ∨ s.ordersNaming i < (s.station i).inFlight) →
          t.station i = { s.station i with
            state := if (s.station i).state = .backlogged ∧ (s.lanesOf i).allEmpty = false then .idle
              else (s.station i).state
            balance := 0, quantum := 0, usedRound := 0, delivered := 0, failed := 0
            cap := s.mod.config.orderMaxUs, held := false, stagedWeight := none, stagedHold := none
            inFlight := (s.station i).inFlight - s.ordersNaming i })
      ∧ t.stt.radioIgnored = 0
      ∧ t.sel = { s.sel with active := [], prompt := [], poll := [], groupDue := false }
      ∧ (∀ c, c < 32 → t.cohort c = { s.cohort c with stagedSpan := none, stagedCapPm := none, usedRound := 0 })
      ∧ t.rck = { s.rck with
          clocksRunning := false, promptUsed := 0, postscaler := 0, skipped := 0
          reportsSent := 0, reportsSkipped := 0 }
      ∧ t.mgd = { s.mgd with
          mediumAlerts := 0, mediumReports := 0, reportsBlanked := 0, linkRaises := 0, mediumIgnored := 0 }
      ∧ t.rli = { s.rli with outbound := t.rli.outbound, rlMalformed := 0, rlOverrun := 0 }
      ∧ t.resetN = s.resetN ∧ t.pending = s.pending

/-- QUIET adds HOST, RESUME removes HOST and LINK; the change of the set moves the mode between RUNNING and QUIET, and
the return to RUNNING is a cause for a selection run (R151, R154, R169). -/
def Obligations.QuietAndResumeChangeTheCauses : Prop :=
  ∀ (s : State) (r : HostRecord) (rest : List HostRecord), s.mod.mode ≠ .halted →
    (s.Heads .quiet r rest →
      exec .quiet s = .next { s with
        cli := s.answered r rest (.code .ok), mod := s.mod.quietSet { s.mod.causes with host := true } })
    ∧ (∀ m, s.Heads .resume r rest → m = s.mod.quietSet { s.mod.causes with host := false, link := false } →
      exec .resume s = .next
        (if s.mod.mode = .quiet ∧ m.mode = .running then
          { s with cli := s.answered r rest (.code .ok), mod := m }.selectionRun
        else { s with cli := s.answered r rest (.code .ok), mod := m }))

/-- STATUS replies in every mode with the figures as they stand, and changes nothing (R172). -/
def Obligations.StatusReportsThePart : Prop :=
  ∀ (s : State) (r : HostRecord) (rest : List HostRecord), s.Heads .status r rest →
    exec .status s = .next { s with cli := s.answered r rest (.status
      { mode := s.mod.mode, causes := s.mod.causes, configValid := s.mod.configValid
        freeEntries := s.fpl.freeEntries, returnLength := s.fpl.returnList.length
        activeLength := s.sel.active.length, outstandingCount := s.ord.outstanding.length
        round := s.rck.round, freeNow := s.mgd.freeNow }) }

/-! ## ADMIT, RELEASE, SET_WEIGHT, HOLD -/

/-- ADMIT outside HALTED: the checks in their order, and the accepted station IDLE with its fields and a BIND note in
line for the MAC (R4, R5, R6, R183). -/
def Obligations.AdmitMakesAStationIdle : Prop :=
  ∀ (s : State) (r : HostRecord) (rest : List HostRecord) (a : AdmitFields),
    s.Heads .admitStation r rest → s.mod.mode ≠ .halted → a = parseAdmit r.body →
    (511 < a.index ∨ a.weight < 1 ∨ 64 < a.weight ∨ (a.rate ≠ 0 ∧ (a.rate < 2 ∨ 2400 < a.rate)) →
      exec .admitStation s = .next { s with cli := s.answered r rest (.code .badRange) })
    ∧ (a.index ≤ 511 → 1 ≤ a.weight → a.weight ≤ 64 → (a.rate = 0 ∨ 2 ≤ a.rate ∧ a.rate ≤ 2400) →
      (a.index = 0 ∨ (s.station a.index).state ≠ .vacant ∨ LinkNote.unbind a.index ∈ s.stt.linkNotes →
        exec .admitStation s = .next { s with cli := s.answered r rest (.code .badState) })
      ∧ (a.index ≠ 0 → (s.station a.index).state = .vacant → LinkNote.unbind a.index ∉ s.stt.linkNotes →
        ∃ t, exec .admitStation s = .next t
          ∧ t.cli = s.answered r rest (.code .ok)
          ∧ t.station a.index =
              { state := .idle, address := a.address, weight := a.weight, stagedWeight := none, held := false
                stagedHold := none, rate := if a.rate = 0 then s.mod.config.defaultRate else a.rate
                balance := 0, quantum := 0, cap := s.mod.config.orderMaxUs
                cohort := (s.station a.index).cohort, inFlight := 0, usedRound := 0, delivered := 0, failed := 0 }
          ∧ (∀ j, j ≠ a.index → t.station j = s.station j)
          ∧ t.stt.radioIgnored = s.stt.radioIgnored
          ∧ t.radioLine = s.radioLine ++ [.bind a.index a.address] ∧ t.radioServed
          ∧ { t.rli with outbound := s.rli.outbound } = s.rli
          ∧ { t.ord with cancelPending := s.ord.cancelPending } = s.ord
          ∧ t.fpl = s.fpl ∧ t.rck = s.rck ∧ t.coh = s.coh ∧ t.sel = s.sel ∧ t.mgd = s.mgd ∧ t.mod = s.mod
          ∧ t.resetN = s.resetN ∧ t.pending = s.pending))

/-- RELEASE outside HALTED: the checks in their order; the accepted station leaves every selector list, its queued
frames are returned RELEASED lane by lane and leave the expiry list, and it is VACANT with an UNBIND in line for the MAC,
or LEAVING while orders are in flight (R1, R6, R7, R40, R183). That no selection run follows, though the held mark is
cleared, is the model's reading (log entry 22). -/
def Obligations.ReleaseReturnsTheFrames : Prop :=
  ∀ (s : State) (r : HostRecord) (rest : List HostRecord) (i : Nat),
    s.Heads .release r rest → s.mod.mode ≠ .halted → i = field r.body 0 2 →
    (511 < i → exec .release s = .next { s with cli := s.answered r rest (.code .badRange) })
    ∧ (i ≤ 511 → i = 0 ∨ (s.station i).state = .vacant ∨ (s.station i).state = .leaving →
      exec .release s = .next { s with cli := s.answered r rest (.code .badState) })
    ∧ (i ≤ 511 → i ≠ 0 → (s.station i).state ≠ .vacant → (s.station i).state ≠ .leaving →
      ∃ t, exec .release s = .next t
        ∧ t.cli = s.answered r rest (.code .ok)
        ∧ ((s.station i).inFlight = 0 →
            t.station i = .cleared (s.station i).cohort
              ∧ t.radioLine = s.radioLine ++ [.unbind i] ∧ t.radioServed)
        ∧ ((s.station i).inFlight ≠ 0 →
            t.station i = { s.station i with
              state := .leaving, held := false, stagedWeight := none, stagedHold := none }
              ∧ t.stt.linkNotes = s.stt.linkNotes ∧ t.rli = s.rli ∧ t.ord = s.ord)
        ∧ (∀ j, j ≠ i → t.station j = s.station j)
        ∧ t.stt.radioIgnored = s.stt.radioIgnored
        ∧ t.sel = { s.sel with
            active := s.sel.active.erase i, prompt := s.sel.prompt.erase i, poll := s.sel.poll.erase i }
        ∧ t.fpl.returnList = s.fpl.returnList
            ++ (s.lanesOf i).inOrder.map (fun f => ⟨f, .released⟩)
        ∧ t.fpl.expiry = s.fpl.expiry.filter (fun e => !(s.lanesOf i).inOrder.any fun f => f.sequence == e.sequence)
        ∧ t.lanesOf i = .empty ∧ (∀ j, j ≠ i → t.lanesOf j = s.lanesOf j)
        ∧ { t.fpl with lanes := s.fpl.lanes, expiry := s.fpl.expiry, returnList := s.fpl.returnList } = s.fpl
        ∧ { t.rli with outbound := s.rli.outbound } = s.rli
        ∧ { t.ord with cancelPending := s.ord.cancelPending } = s.ord
        ∧ t.rck = s.rck ∧ t.coh = s.coh ∧ t.mgd = s.mgd ∧ t.mod = s.mod
        ∧ t.resetN = s.resetN ∧ t.pending = s.pending)

/-- SET_WEIGHT: the checks in their order, and the weight applied at once in READY or with IMMEDIATE set,
and staged otherwise (R9). -/
def Obligations.SetWeightAppliesOrStages : Prop :=
  ∀ (s : State) (r : HostRecord) (rest : List HostRecord) (c : StationChange),
    s.Heads .setWeight r rest → c = parseStationChange r.body →
    (s.mod.mode = .halted →
      exec .setWeight s = .next { s with cli := s.answered r rest (.code .badState) })
    ∧ (s.mod.mode ≠ .halted → 511 < c.index ∨ c.value < 1 ∨ 64 < c.value →
      exec .setWeight s = .next { s with cli := s.answered r rest (.code .badRange) })
    ∧ (s.mod.mode ≠ .halted → c.index ≤ 511 → 1 ≤ c.value → c.value ≤ 64 →
      (c.index = 0 ∨ (s.station c.index).state = .vacant ∨ (s.station c.index).state = .leaving →
        exec .setWeight s = .next { s with cli := s.answered r rest (.code .badState) })
      ∧ (c.index ≠ 0 → (s.station c.index).state ≠ .vacant → (s.station c.index).state ≠ .leaving →
        exec .setWeight s = .next { s with
          cli := s.answered r rest (.code .ok)
          stt := { s.stt with stations := s.stt.stations.modify c.index fun x =>
            if c.immediate = true ∨ s.mod.mode = .ready then { x with weight := c.value, stagedWeight := none }
            else { x with stagedWeight := some c.value } } }))

/-- HOLD outside HALTED: the checks in their order, and the hold applied at once or staged; a hold that ends at once is a
cause for a selection run (R10, R189; a hold value other than 0 and 1 is out of range, log entry 21). -/
def Obligations.HoldAppliesOrStages : Prop :=
  ∀ (s : State) (r : HostRecord) (rest : List HostRecord) (c : StationChange) (v : Bool),
    s.Heads .hold r rest → s.mod.mode ≠ .halted → c = parseStationChange r.body → v = (c.value == 1) →
    (511 < c.index ∨ 1 < c.value →
      exec .hold s = .next { s with cli := s.answered r rest (.code .badRange) })
    ∧ (c.index ≤ 511 → c.value ≤ 1 →
      (c.index = 0 ∨ (s.station c.index).state = .vacant ∨ (s.station c.index).state = .leaving →
        exec .hold s = .next { s with cli := s.answered r rest (.code .badState) })
      ∧ (c.index ≠ 0 → (s.station c.index).state ≠ .vacant → (s.station c.index).state ≠ .leaving →
        (c.immediate = false → s.mod.mode ≠ .ready →
          exec .hold s = .next { s with
            cli := s.answered r rest (.code .ok)
            stt := { s.stt with stations :=
              s.stt.stations.modify c.index fun x => { x with stagedHold := some v } } })
        ∧ (∀ t, c.immediate = true ∨ s.mod.mode = .ready →
            t = { s with
              cli := s.answered r rest (.code .ok)
              stt := { s.stt with stations :=
                s.stt.stations.modify c.index fun x => { x with held := v, stagedHold := none } } } →
            exec .hold s = .next
              (if (s.station c.index).held = true ∧ v = false then t.selectionRun else t))))

/-! ## ENQUEUE, FLUSH, SET_COHORT, QUERY -/

/-- ENQUEUE outside HALTED: a count outside 1..16 is refused whole; otherwise every frame record is decided, each on the
part as the ones before it leave it, the reply carries one result for each in the same order, and an accepted frame is a
cause for a selection run (R27, R29). -/
def Obligations.EnqueueDecidesEveryFrame : Prop :=
  ∀ (s : State) (r : HostRecord) (rest : List HostRecord) (n : Nat),
    s.Heads .enqueue r rest → s.mod.mode ≠ .halted → n = field r.body 0 1 →
    (n = 0 ∨ 16 < n → exec .enqueue s = .next { s with cli := s.answered r rest (.code .badRange) })
    ∧ (1 ≤ n → n ≤ 16 → ∃ (t : State) (results : List ReplyCode),
      exec .enqueue s = .next
          { (if ReplyCode.ok ∈ results then t.selectionRun else t) with
            cli := s.answered r rest (.enqueue results) }
      ∧ s.offerFrames (parseEnqueue r.body) = (t, results) ∧ results.length = n)
    ∧ parseEnqueue r.body = (List.range n).map (fun k => parseFrame r.body (2 + 12 * k))
    ∧ (∀ u : State, u.offerFrames [] = (u, []))
    ∧ (∀ (u : State) (f : FrameFields) (fs : List FrameFields), u.offerFrames (f :: fs)
        = (((u.offerFrame f).1.offerFrames fs).1, (u.offerFrame f).2 :: ((u.offerFrame f).1.offerFrames fs).2))

/-- One frame record: the first check it fails gives its result and nothing but frames_refused changes; a frame that
passes takes a FREE entry, joins the tail of its lane with its deadline, and an IDLE station becomes BACKLOGGED, with
quantum 0 in the middle of a round (R3, R27, R28, R44, R56). That the middle of a round is while the round clock runs is the
model's reading (log entry 30). -/
def Obligations.FrameRecordsAreChecked : Prop :=
  ∀ (s : State) (f : FrameFields) (l : Lane), l = (if f.station = 0 then .bulk else (laneOf f.lane).getD .bulk) →
    (s.offerFrame f).2 =
        (if 511 < f.station then .badRange
        else if (s.station f.station).state = .vacant ∨ (s.station f.station).state = .leaving then .notAdmitted
        else if f.length < 1 ∨ 12000 < f.length ∨ 2 < f.lane ∨ 4095 < f.lifetimeMs then .badRange
        else if s.mod.config.laneLimit ≤ (s.lane f.station l).length then .full
        else if s.fpl.freeEntries = 0 then .full
        else .ok)
    ∧ ((s.offerFrame f).2 ≠ .ok → (s.offerFrame f).1 =
        { s with fpl := { s.fpl with framesRefused := min (s.fpl.framesRefused + 1) 4294967295 } })
    ∧ (∀ t x, (s.offerFrame f).2 = .ok → t = (s.offerFrame f).1 →
        x = ({ token := f.token, station := f.station, lane := l, length := f.length
               deadline := if f.lifetimeMs = 0 then none
                 else some (s.rck.deviceTime + BitVec.ofNat 32 (f.lifetimeMs * 1000))
               noAgg := f.noAgg, requeues := 0, sequence := s.fpl.nextSequence } : Frame) →
        t.lane f.station l = s.lane f.station l ++ [x]
        ∧ (∀ j k, (j, k) ≠ (f.station, l) → t.lane j k = s.lane j k)
        ∧ t.fpl = { s.fpl with
            freeEntries := s.fpl.freeEntries - 1, lanes := t.fpl.lanes, expiry := joinExpiry s.fpl.expiry x
            nextSequence := s.fpl.nextSequence + 1
            framesAccepted := min (s.fpl.framesAccepted + 1) 4294967295 }
        ∧ (∀ j, t.station j = if j = f.station ∧ j ≠ 0 ∧ (s.station j).state = .idle ∧ s.lane j l = []
            then { s.station j with
              state := .backlogged, quantum := if s.rck.clocksRunning = true then 0 else (s.station j).quantum }
            else s.station j)
        ∧ (t.sel.active = if f.station ≠ 0 ∧ (s.station f.station).state = .idle ∧ s.lane f.station l = []
              ∧ f.station ∉ s.sel.active then s.sel.active ++ [f.station] else s.sel.active)
        ∧ (t.sel.prompt = if f.station ≠ 0 ∧ l = .prompt ∧ s.lane f.station l = [] ∧ f.station ∉ s.sel.prompt
              ∧ ((s.station f.station).state = .idle ∨ (s.station f.station).state = .backlogged)
            then s.sel.prompt ++ [f.station] else s.sel.prompt)
        ∧ (t.sel.groupDue = if f.station = 0 ∧ s.lane 0 .bulk = [] ∧ s.dozingCount = 0 then true
            else s.sel.groupDue)
        ∧ t.sel.poll = s.sel.poll ∧ t.sel.choice = s.sel.choice
        ∧ t.stt.linkNotes = s.stt.linkNotes ∧ t.stt.radioIgnored = s.stt.radioIgnored
        ∧ t.cli = s.cli ∧ t.rli = s.rli ∧ t.rck = s.rck ∧ t.coh = s.coh ∧ t.ord = s.ord ∧ t.mgd = s.mgd
        ∧ t.mod = s.mod ∧ t.resetN = s.resetN ∧ t.pending = s.pending)

/-- FLUSH outside HALTED: the checks in their order; every QUEUED entry of the named lanes is returned FLUSHED in lane
order, leaves the expiry list and is counted in the reply; a BACKLOGGED station leaves the prompt list with its last PROMPT
entry and the active list with its last entry, station 0's mark is cleared, and a DOZING station left with none loses its
grant, with a POLL_EMPTY in line for the MAC (R3, R6, R38, R101, R183, log entry 29). -/
def Obligations.FlushReturnsTheNamedLanes : Prop :=
  ∀ (s : State) (r : HostRecord) (rest : List HostRecord) (i mask : Nat),
    s.Heads .flush r rest → s.mod.mode ≠ .halted → i = field r.body 0 2 → mask = field r.body 2 1 →
    (511 < i ∨ mask = 0 ∨ 7 < mask →
      exec .flush s = .next { s with cli := s.answered r rest (.code .badRange) })
    ∧ (i ≤ 511 → mask ≠ 0 → mask ≤ 7 → (s.station i).state = .vacant →
      exec .flush s = .next { s with cli := s.answered r rest (.code .badState) })
    ∧ (∀ p b k : List Frame, i ≤ 511 → mask ≠ 0 → mask ≤ 7 → (s.station i).state ≠ .vacant →
      p = (if mask.testBit 0 then s.lane i .prompt else []) →
      b = (if mask.testBit 1 then s.lane i .bulk else []) →
      k = (if mask.testBit 2 then s.lane i .slack else []) →
      ∃ t, exec .flush s = .next t
        ∧ t.cli = s.answered r rest (.flush (p ++ b ++ k).length)
        ∧ t.fpl.returnList = s.fpl.returnList ++ (p ++ b ++ k).map (fun f => ⟨f, .flushed⟩)
        ∧ t.lane i .prompt = (if mask.testBit 0 then [] else s.lane i .prompt)
        ∧ t.lane i .bulk = (if mask.testBit 1 then [] else s.lane i .bulk)
        ∧ t.lane i .slack = (if mask.testBit 2 then [] else s.lane i .slack)
        ∧ (∀ j, j ≠ i → t.lanesOf j = s.lanesOf j)
        ∧ t.fpl.expiry = s.fpl.expiry.filter (fun e => !(p ++ b ++ k).any fun f => f.sequence == e.sequence)
        ∧ { t.fpl with lanes := s.fpl.lanes, expiry := s.fpl.expiry, returnList := s.fpl.returnList } = s.fpl
        ∧ (∀ j, t.station j =
            if j = i ∧ i ≠ 0 ∧ (s.station i).state = .backlogged ∧ p ++ b ++ k ≠ [] ∧ (t.lanesOf i).allEmpty = true
            then { s.station j with state := .idle } else s.station j)
        ∧ t.sel = { s.sel with
            active := if i ≠ 0 ∧ (s.station i).state = .backlogged ∧ p ++ b ++ k ≠ []
                ∧ (t.lanesOf i).allEmpty = true then s.sel.active.erase i else s.sel.active
            prompt := if i ≠ 0 ∧ (s.station i).state = .backlogged ∧ p ≠ [] then s.sel.prompt.erase i
              else s.sel.prompt
            poll := if i ≠ 0 ∧ (s.station i).state = .dozing ∧ p ++ b ++ k ≠ []
                ∧ (t.lanesOf i).allEmpty = true then s.sel.poll.erase i else s.sel.poll
            groupDue := if i = 0 ∧ p ++ b ++ k ≠ [] then false else s.sel.groupDue }
        ∧ (i ≠ 0 → (s.station i).state = .dozing → p ++ b ++ k ≠ [] → (t.lanesOf i).allEmpty = true →
            i ∈ s.sel.poll → LinkNote.pollEmpty i ∉ s.stt.linkNotes →
            t.radioLine = s.radioLine ++ [.pollEmpty i] ∧ t.radioServed)
        ∧ (p ++ b ++ k = [] ∨ i = 0 ∨ (s.station i).state ≠ .dozing ∨ (t.lanesOf i).allEmpty = false
            ∨ i ∉ s.sel.poll ∨ LinkNote.pollEmpty i ∈ s.stt.linkNotes →
            t.stt.linkNotes = s.stt.linkNotes ∧ t.rli = s.rli ∧ t.ord = s.ord)
        ∧ t.stt.radioIgnored = s.stt.radioIgnored
        ∧ { t.rli with outbound := s.rli.outbound } = s.rli
        ∧ { t.ord with cancelPending := s.ord.cancelPending } = s.ord
        ∧ t.rck = s.rck ∧ t.coh = s.coh ∧ t.mgd = s.mgd ∧ t.mod = s.mod
        ∧ t.resetN = s.resetN ∧ t.pending = s.pending)

/-- SET_COHORT: the checks in their order; in READY the record changes at once and membership follows a
changed span, and in the other modes the change is staged whole. A client station belongs to the lowest-numbered cohort
whose span's range holds its index, and index 0 to none (R85, R86, R87, R88). -/
def Obligations.SetCohortAppliesOrStages : Prop :=
  ∀ (s : State) (r : HostRecord) (rest : List HostRecord) (f : CohortFields),
    s.Heads .setCohort r rest → f = parseSetCohort r.body →
    (s.mod.mode = .halted →
      exec .setCohort s = .next { s with cli := s.answered r rest (.code .badState) })
    ∧ (s.mod.mode ≠ .halted →
        31 < f.number ∨ 512 < f.span ∨ (f.span ≠ 0 ∧ (f.capPm < 1 ∨ 1000 < f.capPm)) →
      exec .setCohort s = .next { s with cli := s.answered r rest (.code .badRange) })
    ∧ (s.mod.mode ≠ .halted → f.number ≤ 31 → f.span ≤ 512 → (f.span = 0 ∨ 1 ≤ f.capPm ∧ f.capPm ≤ 1000) →
      (s.mod.mode ≠ .ready →
        exec .setCohort s = .next { s with
          cli := s.answered r rest (.code .ok)
          coh := { s.coh with cohorts := s.coh.cohorts.modify f.number fun c =>
            { c with
              stagedSpan := some f.span, stagedCapPm := if f.span = 0 then none else some f.capPm } } })
      ∧ (s.mod.mode = .ready →
        ∃ t, exec .setCohort s = .next t
          ∧ t.cli = s.answered r rest (.code .ok)
          ∧ t.coh = { s.coh with cohorts := s.coh.cohorts.modify f.number fun c =>
              { c with
                span := f.span, capPm := if f.span = 0 then c.capPm else f.capPm
                stagedSpan := none, stagedCapPm := none } }
          ∧ ((s.cohort f.number).span = f.span → t.stt = s.stt)
          ∧ ((s.cohort f.number).span ≠ f.span → ∀ i, i < 512 →
              t.station i = { s.station i with cohort := memberOf t.coh.cohorts.rows i })
          ∧ t.stt.linkNotes = s.stt.linkNotes ∧ t.stt.radioIgnored = s.stt.radioIgnored
          ∧ t.rli = s.rli ∧ t.fpl = s.fpl ∧ t.rck = s.rck ∧ t.sel = s.sel ∧ t.ord = s.ord ∧ t.mgd = s.mgd
          ∧ t.mod = s.mod ∧ t.resetN = s.resetN ∧ t.pending = s.pending))
    ∧ ∀ (u : State) (i c : Nat), memberOf u.coh.cohorts.rows i = some c ↔
        i ≠ 0 ∧ c < 32 ∧ InSpan (u.cohort c).span i ∧ ∀ b, b < c → ¬ InSpan (u.cohort b).span i

/-- QUERY outside HALTED: a code that names no table and a start beyond the table are refused; otherwise the reply carries
the least of the count, the entries left and the entries that fit in 512 bytes, and nothing changes. The entries of the
tables carry the fields of R1, R93, R115, R140 and R181 (R85, R180). -/
def Obligations.QueryReadsATable : Prop :=
  ∀ (s : State) (r : HostRecord) (rest : List HostRecord) (code start count : Nat),
    s.Heads .query r rest → s.mod.mode ≠ .halted →
    code = field r.body 0 1 → start = field r.body 2 2 → count = field r.body 4 2 →
    (5 < code → exec .query s = .next { s with cli := s.answered r rest (.code .badRange) })
    ∧ (∀ tbl length last fit,
      (tbl, length, last, fit) ∈
        [(QueryTable.station, 512, 511, 11), (.cohort, 32, 31, 19), (.counters, 28, 27, 126),
          (.activeList, s.sel.active.length, s.sel.active.length, 122),
          (.outstanding, s.ord.outstanding.length, s.ord.outstanding.length, 20),
          (.quarantine, s.ord.quarantine.length, s.ord.quarantine.length, 504)] →
      queryTableOf code = some tbl →
      (last < start → exec .query s = .next { s with cli := s.answered r rest (.code .badRange) })
      ∧ (start ≤ last →
        exec .query s = .next { s with cli := s.answered r rest (.query start (s.readTable tbl start count)) }
        ∧ (s.readTable tbl start count).entryCount = min (min count (length - start)) fit
        ∧ (Reply.query start (s.readTable tbl start count)).bytes.length ≤ 512))
    ∧ s.readTable .station start count
        = .station ((((List.range 512).drop start).take (min count 11)).map s.stationRow)
    ∧ s.readTable .cohort start count = .cohort ((((List.range 32).drop start).take (min count 19)).map s.cohortRow)
    ∧ s.readTable .counters start count = .counters ((s.counters.drop start).take (min count 126))
    ∧ s.readTable .activeList start count
        = .activeList s.activeSummary (((s.sel.active.drop start).take (min count 122)).map s.activeRow)
    ∧ s.readTable .outstanding start count
        = .outstanding s.outstandingSummary
            (((s.ord.outstanding.drop start).take (min count 20)).map s.outstandingRow)
    ∧ s.readTable .quarantine start count
        = .quarantine s.ord.quarantine.length ((s.ord.quarantine.drop start).take (min count 504))
    ∧ s.counters =
      [s.stt.radioIgnored, s.fpl.framesAccepted, s.fpl.framesRefused, s.fpl.framesRequeued, s.fpl.framesExpired,
        s.fpl.tokenNotices, s.rck.reportsSent, s.rck.reportsSkipped, s.ord.counters.ordersIssued,
        s.ord.counters.ordersEmpty, s.ord.counters.outcomesAccepted, s.ord.counters.countMismatches,
        s.ord.counters.retries, s.ord.counters.timeouts, s.ord.counters.ordersCancelled,
        s.ord.counters.lateOutcomes, s.ord.counters.unmatchedOutcomes, s.ord.counters.quarantineEvictions,
        s.mgd.mediumAlerts, s.mgd.mediumReports, s.mgd.reportsBlanked, s.mgd.linkRaises, s.mgd.mediumIgnored,
        s.mod.alertsSent, s.cli.clShortRecords, s.cli.clBadDirection, s.rli.rlMalformed, s.rli.rlOverrun]
    ∧ (∀ i, s.stationRow i =
      { index := i, station := s.station i, promptQueued := (s.lane i .prompt).length
        bulkQueued := (s.lane i .bulk).length, slackQueued := (s.lane i .slack).length })
    ∧ (∀ c, (s.cohortRow c).number = c ∧ (s.cohortRow c).cohort = s.cohort c
      ∧ ((s.cohort c).span = 0 → (s.cohortRow c).firstIndex = 0 ∧ (s.cohortRow c).lastIndex = 0)
      ∧ (∀ p, p < 10 → (s.cohort c).span.testBit p = true → (∀ q, q < p → (s.cohort c).span.testBit q = false) →
          (s.cohortRow c).firstIndex = (s.cohort c).span - 2 ^ p
          ∧ (s.cohortRow c).lastIndex = (s.cohort c).span - 2 ^ p + 2 ^ p - 1))
    ∧ s.activeSummary =
      { cursor := s.sel.active.head?, activeLength := s.sel.active.length, promptLength := s.sel.prompt.length
        pollLength := s.sel.poll.length, groupDue := s.sel.groupDue, groupBudget := s.sel.groupBudget
        promptBudget := s.sel.promptBudget }
    ∧ (∀ i, s.activeRow i = { station := i, onPrompt := decide (i ∈ s.sel.prompt) })
    ∧ s.outstandingSummary =
      { count := s.ord.outstanding.length, window := s.mod.config.window, nextId := s.ord.nextId
        lossCount := s.ord.lossCount, cancelPending := s.ord.cancelPending }
    ∧ (∀ o : Order, s.outstandingRow o =
      { id := o.id, lane := o.lane, station := o.station, kind := o.kind, frameCount := o.frames.length, est := o.est
        round := o.round, promptPeriod := o.promptPeriod, cohort := o.cohort, sent := o.sent
        timeToDeadline := o.deadline - s.rck.deviceTime })

/-! ## Notices and ATTN -/

/-- TOKEN_RETURN: with 2 slots free the first 32 entries of the return list at most are carried in order and become
FREE; otherwise the row changes nothing (R42, log entry 1). -/
def Obligations.TokenReturnFreesEntries : Prop :=
  ∀ s : State, s.resetN = false →
    (s.fpl.returnList ≠ [] → s.cli.outbound.length + 2 ≤ 16 →
      exec .tokenReturn s = .next { s with
        cli := s.noticed (.tokenReturn ((s.fpl.returnList.take 32).map fun e => (e.frame.token, e.result)))
        fpl := { s.fpl with
          returnList := s.fpl.returnList.drop 32
          freeEntries := s.fpl.freeEntries + min 32 s.fpl.returnList.length
          tokenNotices := min (s.fpl.tokenNotices + 1) 4294967295 } })
    ∧ (s.fpl.returnList = [] ∨ 16 < s.cli.outbound.length + 2 → exec .tokenReturn s = .next s)

/-- ALERT: while pending-alert is set and 2 slots are free, the mode, the set and the capture record as they stand are
placed and the flag is cleared; otherwise the row changes nothing (R170, log entry 1). -/
def Obligations.AlertReportsThePart : Prop :=
  ∀ s : State, s.resetN = false →
    (s.mod.pendingAlert = true → s.cli.outbound.length + 2 ≤ 16 →
      exec .alert s = .next { s with
        cli := s.noticed (.alert s.mod.mode s.mod.causes s.mgd.capture)
        mod := { s.mod with pendingAlert := false, alertsSent := min (s.mod.alertsSent + 1) 4294967295 } })
    ∧ (s.mod.pendingAlert = false ∨ 16 < s.cli.outbound.length + 2 → exec .alert s = .next s)

/-- ATTN_PULSE ends a pulse that has lasted 2 µs, and the next begins while the backlog stays above 0; CL_ATTN follows
the queue in LEVEL, the pulse in PULSE, and is idle while the configuration is invalid (R179, log entries 1 and 17). -/
def Obligations.AttnFollowsItsMode : Prop :=
  ∀ s : State,
    (∀ b, s.resetN = false → s.cli.pulse = some b → passed s.rck.deviceTime (b + 2) = true →
      exec .attnPulse s = .next { s with cli := { s.cli with
        backlog := s.cli.backlog - 1
        pulse := if 1 < s.cli.backlog then some s.rck.deviceTime else none } })
    ∧ (s.resetN = false → (∀ b, s.cli.pulse = some b → passed s.rck.deviceTime (b + 2) = false) →
      exec .attnPulse s = .next s)
    ∧ (s.mod.configValid = false → s.attnLevel = s.mod.config.attnActive.opposite)
    ∧ (s.mod.configValid = true → s.mod.config.attnMode = .level →
      s.attnLevel = if s.cli.outbound = [] then s.mod.config.attnActive.opposite else s.mod.config.attnActive)
    ∧ (s.mod.configValid = true → s.mod.config.attnMode = .pulse →
      s.attnLevel = if s.cli.pulse = some s.rck.deviceTime then s.mod.config.attnActive
        else s.mod.config.attnActive.opposite)

/-! ## The Radio Link -/

/-- RECORD_START ends a record in progress, which is malformed whatever its bytes because no end-of-record symbol has
closed it, and claims a place while PART_RDY is asserted, or discards the new record and counts it; RECORD_END puts a
well-formed record in line for delivery and discards and counts a malformed one; a discarded record leaves nothing (R184,
R185, R190, log entries 1 and 13). -/
def Obligations.RadioRecordsArrive : Prop :=
  ∀ (s : State) (bytes : List Byte), s.resetN = false →
    (s.rli.arrival = .idle → exec (.recordEnd bytes) s = .next s)
    ∧ (s.rli.arrival = .discarding →
      exec (.recordEnd bytes) s = .next { s with rli := { s.rli with arrival := .idle } })
    ∧ (s.rli.arrival = .claimed → parseMacRecord bytes = none →
      exec (.recordEnd bytes) s = .next { s with rli := { s.rli with
        arrival := .idle, rlMalformed := min (s.rli.rlMalformed + 1) 4294967295 } })
    ∧ (∀ m, s.rli.arrival = .claimed → parseMacRecord bytes = some m →
      exec (.recordEnd bytes) s = .next { s with rli := { s.rli with
        arrival := .idle, inbound := s.rli.inbound ++ [m] } })
    ∧ (parseMacRecord bytes ≠ none ↔ ∃ typ tag l0 l1 body, bytes = typ :: tag :: l0 :: l1 :: body
        ∧ body.length = l0.toNat + 256 * l1.toNat
        ∧ (typ, body.length) ∈ [(0x60#8, 10), (0x61#8, 2), (0x62#8, 1), (0x63#8, 0), (0x64#8, 2), (0x65#8, 2),
            (0x66#8, 2)])
    ∧ (s.rli.arrival = .idle → s.rli.inbound.length < 16 →
      exec (.recordStart bytes) s = .next { s with rli := { s.rli with arrival := .claimed } })
    ∧ (s.rli.arrival = .idle → 16 ≤ s.rli.inbound.length →
      exec (.recordStart bytes) s = .next { s with rli := { s.rli with
        arrival := .discarding, rlOverrun := min (s.rli.rlOverrun + 1) 4294967295 } })
    ∧ (s.rli.arrival = .claimed → s.rli.inbound.length < 16 →
      exec (.recordStart bytes) s = .next { s with rli := { s.rli with
        arrival := .claimed, rlMalformed := min (s.rli.rlMalformed + 1) 4294967295 } })
    ∧ (s.rli.arrival = .claimed → 16 ≤ s.rli.inbound.length →
      exec (.recordStart bytes) s = .next { s with rli := { s.rli with
        arrival := .discarding, rlMalformed := min (s.rli.rlMalformed + 1) 4294967295
        rlOverrun := min (s.rli.rlOverrun + 1) 4294967295 } })
    ∧ (s.rli.arrival = .discarding → s.rli.inbound.length < 16 →
      exec (.recordStart bytes) s = .next { s with rli := { s.rli with arrival := .claimed } })
    ∧ (s.rli.arrival = .discarding → 16 ≤ s.rli.inbound.length →
      exec (.recordStart bytes) s = .next { s with rli := { s.rli with
        arrival := .discarding, rlOverrun := min (s.rli.rlOverrun + 1) 4294967295 } })

/-- RADIO_RECORD_BEGIN begins the head record when MAC_RDY is sampled asserted, and RADIO_RECORD_SENT takes the record
begun from the queue, with idle symbols behind its end-of-record symbol; otherwise the record waits (R182, R190, log
entries 1, 12 and 14). -/
def Obligations.RadioRecordsAreSentWhole : Prop :=
  ∀ s : State, s.resetN = false →
    (s.rli.sending = false → s.rli.outbound ≠ [] →
      exec (.radioRecordBegin true) s = .next { s with rli := { s.rli with
        sending := true, rlTx := [.startOfRecord] } })
    ∧ exec (.radioRecordBegin false) s = .next s
    ∧ (∀ ready, s.rli.sending = true ∨ s.rli.outbound = [] → exec (.radioRecordBegin ready) s = .next s)
    ∧ (∀ x rest, s.rli.sending = true → s.rli.outbound = x :: rest →
      exec .radioRecordSent s = .next { s with rli := { s.rli with
        sending := false, outbound := rest, rlTx := .startOfRecord :: (x.bytes.map .data ++ [.endOfRecord, .idle]) } })
    ∧ (s.rli.sending = false ∨ s.rli.outbound = [] → exec .radioRecordSent s = .next s)

/-- A free radio outbound slot goes to the pending CANCEL_ALL, then to the head link note, then to the oldest held
TX_ORDER; without a free slot, or while an earlier source waits, a source gets none (R6, R123, R183, log entries 1 and
15). -/
def Obligations.RadioSlotsAreGivenInOrder : Prop :=
  ∀ s : State, s.resetN = false →
    (s.ord.cancelPending = true → s.rli.outbound.length < 8 →
      exec .cancelAll s = .next { s with
        rli := { s.rli with outbound := s.rli.outbound ++ [.cancelAll] }
        ord := { s.ord with cancelPending := false } })
    ∧ (s.ord.cancelPending = false ∨ 8 ≤ s.rli.outbound.length → exec .cancelAll s = .next s)
    ∧ (∀ n rest, s.ord.cancelPending = false → s.stt.linkNotes = n :: rest → s.rli.outbound.length < 8 →
      exec .linkNoteHanded s = .next { s with
        rli := { s.rli with outbound := s.rli.outbound ++ [n.toRecord] }
        stt := { s.stt with linkNotes := rest } })
    ∧ (s.ord.cancelPending = true ∨ s.stt.linkNotes = [] ∨ 8 ≤ s.rli.outbound.length →
      exec .linkNoteHanded s = .next s)
    ∧ (∀ pre o post, s.ord.cancelPending = false → s.stt.linkNotes = [] → s.rli.outbound.length < 8 →
      s.ord.outstanding = pre ++ o :: post → (∀ p ∈ pre, p.sent = .placed) → o.sent = .waiting →
      exec .txOrderPlaced s = .next { s with
        rli := { s.rli with outbound := s.rli.outbound ++ [.txOrder
          { id := o.id, kind := o.kind, station := o.station, lane := o.lane, est := o.est
            frames := o.frames.map fun f => (f.token, f.length) }] }
        ord := { s.ord with outstanding := pre ++ { o with sent := .placed } :: post } })
    ∧ (s.ord.cancelPending = true ∨ s.stt.linkNotes ≠ [] ∨ 8 ≤ s.rli.outbound.length
        ∨ (∀ o ∈ s.ord.outstanding, o.sent = .placed) →
      exec .txOrderPlaced s = .next s)

/-! ## Outcomes -/

/-- TX_OUTCOME for an outstanding order of a station that is not LEAVING: the correction, the rate, the frames, the
counters, in_flight, the removal, the loss count of R125, with the fates of R126 and R127; the requeued frames bring an
IDLE station back and onto the lists, with quantum 0 in the middle of a round (R56). The last order of a drain ends it (R165), and otherwise a selection run follows (R2,
R3, R18, R32, R51, R52, R63, R64, R65, R78, R99, R101, log entry 7). That the middle of a round is while the round clock
runs is the model's reading (log entry 30). -/
def Obligations.AcceptedOutcomeConcludesTheOrder : Prop :=
  ∀ (s : State) (rest : List MacRecord) (x : Outcome) (o : Order) (pre post : List Order) (i : Nat) (st : Station)
    (d : Int) (marked undone back : List Frame),
    s.Delivers (.txOutcome x) rest → s.ord.outstanding = pre ++ o :: post → o.id = x.id →
    (∀ p ∈ pre ++ post, p.id ≠ x.id) → i = o.station → i < 512 → st = s.station i → st.state ≠ .leaving →
    d = (o.est : Int) - x.airtime →
    marked = (if x.frameCount = o.frames.length
      then (o.frames.zipIdx.filter fun p => x.deliveredMap.getLsbD p.2).map Prod.fst else []) →
    undone = (if x.frameCount = o.frames.length
      then (o.frames.zipIdx.filter fun p => !x.deliveredMap.getLsbD p.2).map Prod.fst else o.frames) →
    back = (undone.filter fun f => !deadlinePassed s.rck.deviceTime f.deadline
      && decide (f.requeues < s.mod.config.requeueMax)).map (fun f => { f with requeues := f.requeues + 1 }) →
    ∃ u : State, exec .txOutcome s = .next
        (if s.mod.mode = .draining ∧ pre ++ post = [] then u.enterReady else u.selectionRun)
      ∧ u.rli = s.delivered rest
      ∧ u.ord = s.ord.concluded (pre ++ post) o x
      ∧ u.station i = { st.concluded s.mod.config i x d marked.length undone.length with
          state := if i ≠ 0 ∧ st.state = .idle ∧ back ≠ [] ∧ s.lane i o.lane = [] then .backlogged else st.state
          quantum := if i ≠ 0 ∧ st.state = .idle ∧ back ≠ [] ∧ s.lane i o.lane = [] ∧ s.rck.clocksRunning = true
            then 0 else st.quantum }
      ∧ (∀ j, j ≠ i → u.station j = s.station j)
      ∧ u.fpl = { s.fpl with
          lanes := u.fpl.lanes
          expiry := back.foldl joinExpiry s.fpl.expiry
          framesRequeued := if back = [] then s.fpl.framesRequeued
            else min (s.fpl.framesRequeued + back.length) 4294967295
          returnList := s.fpl.returnList ++ marked.map (fun f => ⟨f, .delivered⟩)
            ++ (undone.filter fun f => deadlinePassed s.rck.deviceTime f.deadline
                || decide (s.mod.config.requeueMax ≤ f.requeues)).map
              (fun f => ⟨f, if deadlinePassed s.rck.deviceTime f.deadline = true then .expired else .failed⟩) }
      ∧ u.lane i o.lane = back ++ s.lane i o.lane
      ∧ (∀ j l, (j, l) ≠ (i, o.lane) → u.lane j l = s.lane j l)
      ∧ AccountsCorrected s u o d
      ∧ u.sel = { s.sel with
          active := if i ≠ 0 ∧ st.state = .idle ∧ back ≠ [] ∧ s.lane i o.lane = [] ∧ i ∉ s.sel.active
            then s.sel.active ++ [i] else s.sel.active
          prompt := if i ≠ 0 ∧ o.lane = .prompt ∧ back ≠ [] ∧ s.lane i o.lane = [] ∧ i ∉ s.sel.prompt
              ∧ (st.state = .idle ∨ st.state = .backlogged)
            then s.sel.prompt ++ [i] else s.sel.prompt
          promptBudget := u.sel.promptBudget, groupBudget := u.sel.groupBudget
          groupDue := if i = 0 ∧ back ≠ [] ∧ s.lane i o.lane = [] ∧ s.dozingCount = 0 then true
            else if o.kind = .group ∧ o.round = s.rck.round ∧ u.sel.groupBudget ≤ 0 then false
            else s.sel.groupDue }
      ∧ u.stt.linkNotes = s.stt.linkNotes ∧ u.stt.radioIgnored = s.stt.radioIgnored
      ∧ u.cli = s.cli ∧ u.mgd = s.mgd ∧ u.mod = s.mod ∧ u.resetN = s.resetN ∧ u.pending = s.pending

/-- TX_OUTCOME for an order of a LEAVING station: the accounts are corrected as ever, every undelivered frame is returned
FAILED, no frame goes back to a lane, no list moves, and the last order clears the record with an UNBIND in line for the
MAC (R8, R127, R128, R183); the last order of a drain ends it (R165). The end of a drain, whatever brought it: the clocks
stop, every staged change is applied, the mode becomes READY, and no selection run opens (R11, R90, R104, R165). That the
stopped clocks keep their next boundary times is the model's choice (log entry 31). -/
def Obligations.OutcomeEndsALeavingStationOrADrain : Prop :=
  (∀ (s : State) (rest : List MacRecord) (x : Outcome) (o : Order) (pre post : List Order) (i : Nat) (st : Station)
    (d : Int) (marked undone : List Frame),
    s.Delivers (.txOutcome x) rest → s.ord.outstanding = pre ++ o :: post → o.id = x.id →
    (∀ p ∈ pre ++ post, p.id ≠ x.id) → i = o.station → st = s.station i → st.state = .leaving →
    d = (o.est : Int) - x.airtime →
    marked = (if x.frameCount = o.frames.length
      then (o.frames.zipIdx.filter fun p => x.deliveredMap.getLsbD p.2).map Prod.fst else []) →
    undone = (if x.frameCount = o.frames.length
      then (o.frames.zipIdx.filter fun p => !x.deliveredMap.getLsbD p.2).map Prod.fst else o.frames) →
    ∃ u : State, exec .txOutcome s = .next
        (if s.mod.mode = .draining ∧ pre ++ post = [] then u.enterReady else u.selectionRun)
      ∧ { u.ord with cancelPending := s.ord.cancelPending } = s.ord.concluded (pre ++ post) o x
      ∧ u.fpl = { s.fpl with returnList := (s.fpl.returnList
          ++ marked.map (fun f => ⟨f, .delivered⟩) ++ undone.map (fun f => ⟨f, .failed⟩)) }
      ∧ (st.inFlight ≤ 1 → u.station i = .cleared st.cohort
          ∧ u.radioLine = s.radioLine ++ [.unbind i] ∧ u.radioServed)
      ∧ (1 < st.inFlight → u.station i = st.concluded s.mod.config i x d marked.length undone.length
          ∧ u.stt.linkNotes = s.stt.linkNotes ∧ u.rli = s.delivered rest
          ∧ u.ord.cancelPending = s.ord.cancelPending)
      ∧ (∀ j, j ≠ i → u.station j = s.station j)
      ∧ AccountsCorrected s u o d
      ∧ u.sel = { s.sel with
          promptBudget := u.sel.promptBudget, groupBudget := u.sel.groupBudget
          groupDue := if o.kind = .group ∧ o.round = s.rck.round ∧ u.sel.groupBudget ≤ 0 then false
            else s.sel.groupDue }
      ∧ { u.rli with outbound := s.rli.outbound } = s.delivered rest ∧ u.stt.radioIgnored = s.stt.radioIgnored
      ∧ u.cli = s.cli ∧ u.mgd = s.mgd ∧ u.mod = s.mod ∧ u.resetN = s.resetN ∧ u.pending = s.pending)
  ∧ ∀ v : State, v.mod.mode ≠ .ready →
    v.enterReady.mod = { v.mod with mode := .ready, pendingAlert := true }
    ∧ v.enterReady.rck = { v.rck with clocksRunning := false }
    ∧ (∀ i, i < 512 → v.enterReady.station i = { v.station i with
        weight := (v.station i).stagedWeight.getD (v.station i).weight, stagedWeight := none
        held := (v.station i).stagedHold.getD (v.station i).held, stagedHold := none
        cohort := (v.enterReady.station i).cohort })
    ∧ (∀ c, c < 32 → v.enterReady.cohort c = { v.cohort c with
        span := (v.cohort c).stagedSpan.getD (v.cohort c).span, stagedSpan := none
        capPm := (v.cohort c).stagedCapPm.getD (v.cohort c).capPm, stagedCapPm := none })
    ∧ ((∀ c, c < 32 → (v.enterReady.cohort c).span = (v.cohort c).span) →
        ∀ i, i < 512 → (v.enterReady.station i).cohort = (v.station i).cohort)
    ∧ ((∃ c, c < 32 ∧ (v.enterReady.cohort c).span ≠ (v.cohort c).span) →
        ∀ i, i < 512 → (v.enterReady.station i).cohort = memberOf v.enterReady.coh.cohorts.rows i)
    ∧ v.enterReady.stt.linkNotes = v.stt.linkNotes ∧ v.enterReady.stt.radioIgnored = v.stt.radioIgnored
    ∧ v.enterReady.cli = v.cli ∧ v.enterReady.rli = v.rli ∧ v.enterReady.fpl = v.fpl ∧ v.enterReady.sel = v.sel
    ∧ v.enterReady.ord = v.ord ∧ v.enterReady.mgd = v.mgd ∧ v.enterReady.resetN = v.resetN
    ∧ v.enterReady.pending = v.pending ∧ v.enterReady.selectionRun = v.enterReady

/-- TX_OUTCOME for a quarantined id is late: the id leaves the quarantine list; for any other id it is unmatched; neither
touches an account, a frame, a station or the loss count (R135, R136). -/
def Obligations.LateAndUnmatchedOutcomesAreDiscarded : Prop :=
  ∀ (s : State) (rest : List MacRecord) (x : Outcome), s.Delivers (.txOutcome x) rest →
    (∀ o ∈ s.ord.outstanding, o.id ≠ x.id) →
    (x.id ∈ s.ord.quarantine →
      exec .txOutcome s = .next { s with
        rli := s.delivered rest
        ord := { s.ord with
          quarantine := s.ord.quarantine.erase x.id
          counters := { s.ord.counters with
            lateOutcomes := min (s.ord.counters.lateOutcomes + 1) 4294967295 } } })
    ∧ (x.id ∉ s.ord.quarantine →
      exec .txOutcome s = .next { s with
        rli := s.delivered rest
        ord := { s.ord with counters := { s.ord.counters with
          unmatchedOutcomes := min (s.ord.counters.unmatchedOutcomes + 1) 4294967295 } } })

/-! ## Medium records -/

/-- MEDIUM_REPORT: free_now takes the value clamped to 1000 while blanking is STOPPED; the report is discarded and
counted while it is RUNNING, and in HALTED (R144, R150). -/
def Obligations.MediumReportSetsFreeNow : Prop :=
  ∀ (s : State) (rest : List MacRecord) (pm : Nat), s.Delivers (.mediumReport pm) rest →
    (s.mod.mode = .halted →
      exec .mediumReport s = .next { s with
        rli := s.delivered rest
        mgd := { s.mgd with mediumIgnored := min (s.mgd.mediumIgnored + 1) 4294967295 } })
    ∧ (s.mod.mode ≠ .halted → s.mgd.blanking = none →
      exec .mediumReport s = .next { s with
        rli := s.delivered rest
        mgd := { s.mgd with
          freeNow := min pm 1000, mediumReports := min (s.mgd.mediumReports + 1) 4294967295 } })
    ∧ (s.mod.mode ≠ .halted → s.mgd.blanking ≠ none →
      exec .mediumReport s = .next { s with
        rli := s.delivered rest
        mgd := { s.mgd with reportsBlanked := min (s.mgd.reportsBlanked + 1) 4294967295 } })

/-- MEDIUM_ALERT outside HALTED: the first alert of an episode fills the capture record, MEDIUM joins the quiet causes,
blanking restarts, the alert is counted and pending-alert set; in HALTED it is discarded and counted (R71, R145, R147,
R148, R150, R154; the offset of an alert taken before a boundary already due is log entry 28's). -/
def Obligations.MediumAlertBeginsAnEpisode : Prop :=
  ∀ (s : State) (rest : List MacRecord) (cause : AlertCause), s.Delivers (.mediumAlert cause) rest →
    (s.mod.mode = .halted →
      exec .mediumAlert s = .next { s with
        rli := s.delivered rest
        mgd := { s.mgd with mediumIgnored := min (s.mgd.mediumIgnored + 1) 4294967295 } })
    ∧ (s.mod.mode ≠ .halted →
      exec .mediumAlert s = .next { s with
        rli := s.delivered rest
        mod := { s.mod.quietSet { s.mod.causes with medium := true } with pendingAlert := true }
        mgd := { s.mgd with
          capture := if s.mod.causes.medium = true then s.mgd.capture
            else
              { time := s.rck.deviceTime, round := s.rck.round
                offset := if s.rck.clocksRunning = true
                  then min (s.rck.deviceTime - s.rck.lastRoundAt).toNat (s.mod.config.roundUs - 1) else 0
                cause := cause }
          blanking := if s.mod.config.blankMs = 0 then none
            else some (s.rck.deviceTime + BitVec.ofNat 32 (s.mod.config.blankMs * 1000))
          mediumAlerts := min (s.mgd.mediumAlerts + 1) 4294967295 } })

/-- MEDIUM_CLEAR outside HALTED removes MEDIUM and restarts blanking, and the return to RUNNING is a cause for a
selection run; in HALTED it is discarded and counted (R145, R149, R150, R154). -/
def Obligations.MediumClearEndsTheEpisode : Prop :=
  ∀ (s : State) (rest : List MacRecord) (m : Mod) (t : State), s.Delivers .mediumClear rest →
    m = s.mod.quietSet { s.mod.causes with medium := false } →
    t = { s with
      rli := s.delivered rest
      mod := m
      mgd := { s.mgd with
        blanking := if s.mod.config.blankMs = 0 then none
          else some (s.rck.deviceTime + BitVec.ofNat 32 (s.mod.config.blankMs * 1000)) } } →
    (s.mod.mode = .halted →
      exec .mediumClear s = .next { s with
        rli := s.delivered rest
        mgd := { s.mgd with mediumIgnored := min (s.mgd.mediumIgnored + 1) 4294967295 } })
    ∧ (s.mod.mode ≠ .halted →
      exec .mediumClear s = .next (if s.mod.mode = .quiet ∧ m.mode = .running then t.selectionRun else t))

/-! ## DOZE, WAKE, POLL -/

/-- DOZE: an IDLE or BACKLOGGED client station becomes DOZING and leaves the active and prompt lists; a DOZING one stays;
for any other index the record is discarded and counted (R12, R15, R185). -/
def Obligations.DozeTakesAStationOffTheLists : Prop :=
  ∀ (s : State) (rest : List MacRecord) (i : Nat) (x : StationState), s.Delivers (.doze i) rest →
    x = (s.station i).state →
    (i ≠ 0 → i < 512 → x = .idle ∨ x = .backlogged →
      exec .doze s = .next { s with
        rli := s.delivered rest
        stt := { s.stt with stations := s.stt.stations.modify i fun y => { y with state := .dozing } }
        sel := { s.sel with active := s.sel.active.erase i, prompt := s.sel.prompt.erase i } })
    ∧ (i ≠ 0 → i < 512 → x = .dozing → exec .doze s = .next { s with rli := s.delivered rest })
    ∧ (i = 0 ∨ 512 ≤ i ∨ x = .vacant ∨ x = .leaving →
      exec .doze s = .next { s with
        rli := s.delivered rest
        stt := { s.stt with radioIgnored := min (s.stt.radioIgnored + 1) 4294967295 } })

/-- WAKE: a DOZING station loses its grant and becomes BACKLOGGED on the active list, and on the prompt list with a
PROMPT frame, or IDLE with empty lanes, and the wake is a cause for a selection run; one that wakes in the middle of a
round has quantum 0; an awake one stays; for any other index the record is discarded and counted (R13, R15, R185). That the
middle of a round is while the round clock runs is the model's reading (log entry 30). -/
def Obligations.WakeEndsADoze : Prop :=
  ∀ (s : State) (rest : List MacRecord) (i : Nat) (x : StationState), s.Delivers (.wake i) rest →
    x = (s.station i).state →
    (∀ t, i ≠ 0 → i < 512 → x = .dozing →
      t = { s with
        rli := s.delivered rest
        stt := { s.stt with stations := s.stt.stations.modify i fun y =>
          { y with
            state := if (s.lanesOf i).allEmpty = true then .idle else .backlogged
            quantum := if s.rck.clocksRunning = true then 0 else y.quantum } }
        sel := { s.sel with
          poll := s.sel.poll.erase i
          active := if (s.lanesOf i).allEmpty = false ∧ i ∉ s.sel.active then s.sel.active ++ [i]
            else s.sel.active
          prompt := if s.lane i .prompt ≠ [] ∧ i ∉ s.sel.prompt then s.sel.prompt ++ [i]
            else s.sel.prompt } } →
      exec .wake s = .next t.selectionRun)
    ∧ (i ≠ 0 → i < 512 → x = .idle ∨ x = .backlogged → exec .wake s = .next { s with rli := s.delivered rest })
    ∧ (i = 0 ∨ 512 ≤ i ∨ x = .vacant ∨ x = .leaving →
      exec .wake s = .next { s with
        rli := s.delivered rest
        stt := { s.stt with radioIgnored := min (s.stt.radioIgnored + 1) 4294967295 } })

/-- POLL: a DOZING station with a queued frame joins the poll list, a cause for a selection run; one with none gets a
POLL_EMPTY note unless one is queued; an awake station is left alone; for any other index the record is discarded and
counted (R6, R14, R15, R185). -/
def Obligations.PollGrantsOneFrame : Prop :=
  ∀ (s : State) (rest : List MacRecord) (i : Nat) (x : StationState), s.Delivers (.poll i) rest →
    x = (s.station i).state →
    (∀ t, i ≠ 0 → i < 512 → x = .dozing → (s.lanesOf i).allEmpty = false →
      t = { s with
        rli := s.delivered rest
        sel := { s.sel with poll := if i ∈ s.sel.poll then s.sel.poll else s.sel.poll ++ [i] } } →
      exec .poll s = .next t.selectionRun)
    ∧ (i ≠ 0 → i < 512 → x = .dozing → (s.lanesOf i).allEmpty = true → LinkNote.pollEmpty i ∈ s.stt.linkNotes →
      exec .poll s = .next { s with rli := s.delivered rest })
    ∧ (i ≠ 0 → i < 512 → x = .dozing → (s.lanesOf i).allEmpty = true → LinkNote.pollEmpty i ∉ s.stt.linkNotes →
      ∃ t, exec .poll s = .next t
        ∧ t.radioLine = s.radioLine ++ [.pollEmpty i] ∧ t.radioServed
        ∧ { t.rli with outbound := s.rli.outbound } = s.delivered rest
        ∧ { t.stt with linkNotes := s.stt.linkNotes } = s.stt
        ∧ { t.ord with cancelPending := s.ord.cancelPending } = s.ord
        ∧ t.cli = s.cli ∧ t.fpl = s.fpl ∧ t.rck = s.rck ∧ t.coh = s.coh ∧ t.sel = s.sel ∧ t.mgd = s.mgd
        ∧ t.mod = s.mod ∧ t.resetN = s.resetN ∧ t.pending = s.pending)
    ∧ (i ≠ 0 → i < 512 → x = .idle ∨ x = .backlogged → exec .poll s = .next { s with rli := s.delivered rest })
    ∧ (i = 0 ∨ 512 ≤ i ∨ x = .vacant ∨ x = .leaving →
      exec .poll s = .next { s with
        rli := s.delivered rest
        stt := { s.stt with radioIgnored := min (s.stt.radioIgnored + 1) 4294967295 } })

/-! ## Deadlines -/

/-- FRAME_EXPIRY: the entry at the head of the expiry list, its deadline passed, leaves the list and its lane and is
returned EXPIRED; a lane left empty takes its station off the lists as R3 says. A choice that waits does not hold back an
expiry of its own lane, and waits on (R37, R106). A deadline that has not passed brings nothing (R3, R36, R101, R183, log
entry 1). -/
def Obligations.ExpiredFrameIsReturned : Prop :=
  ∀ (s : State), s.resetN = false →
    (∀ (e : ExpiryRef) (es : List ExpiryRef) (pre post : List Frame) (f : Frame),
      (∀ c, s.sel.choice = some c → e.station = c.station ∧ e.lane = c.lane) →
      s.fpl.expiry = e :: es → passed s.rck.deviceTime e.deadline = true →
      s.lane e.station e.lane = pre ++ f :: post → f.sequence = e.sequence → (∀ g ∈ pre, g.sequence ≠ e.sequence) →
      ∃ t, exec .frameExpiry s = .next t
        ∧ t.fpl = { s.fpl with
            expiry := es, lanes := t.fpl.lanes, returnList := s.fpl.returnList ++ [⟨f, .expired⟩]
            framesExpired := min (s.fpl.framesExpired + 1) 4294967295 }
        ∧ t.lane e.station e.lane = pre ++ post
        ∧ (∀ j l, (j, l) ≠ (e.station, e.lane) → t.lane j l = s.lane j l)
        ∧ (∀ j, t.station j =
            if j = e.station ∧ j ≠ 0 ∧ (s.station j).state = .backlogged ∧ (t.lanesOf j).allEmpty = true
            then { s.station j with state := .idle } else s.station j)
        ∧ t.sel = { s.sel with
            active := if e.station ≠ 0 ∧ (s.station e.station).state = .backlogged
                ∧ (t.lanesOf e.station).allEmpty = true then s.sel.active.erase e.station else s.sel.active
            prompt := if e.station ≠ 0 ∧ (s.station e.station).state = .backlogged ∧ e.lane = .prompt
                ∧ pre ++ post = [] then s.sel.prompt.erase e.station else s.sel.prompt
            poll := if e.station ≠ 0 ∧ (s.station e.station).state = .dozing
                ∧ (t.lanesOf e.station).allEmpty = true then s.sel.poll.erase e.station else s.sel.poll
            groupDue := if e.station = 0 ∧ pre ++ post = [] then false else s.sel.groupDue }
        ∧ (pre ++ post ≠ [] ∨ e.station = 0 ∨ (s.station e.station).state ≠ .dozing
            ∨ (t.lanesOf e.station).allEmpty = false ∨ e.station ∉ s.sel.poll
            ∨ LinkNote.pollEmpty e.station ∈ s.stt.linkNotes →
            t.stt.linkNotes = s.stt.linkNotes ∧ t.rli = s.rli ∧ t.ord = s.ord)
        ∧ (e.station ≠ 0 → (s.station e.station).state = .dozing → (t.lanesOf e.station).allEmpty = true →
            e.station ∈ s.sel.poll → LinkNote.pollEmpty e.station ∉ s.stt.linkNotes →
            t.radioLine = s.radioLine ++ [.pollEmpty e.station] ∧ t.radioServed)
        ∧ t.stt.radioIgnored = s.stt.radioIgnored
        ∧ t.cli = s.cli ∧ t.rck = s.rck ∧ t.coh = s.coh ∧ t.mgd = s.mgd ∧ t.mod = s.mod
        ∧ t.resetN = s.resetN ∧ t.pending = s.pending)
    ∧ ((∀ e es, s.fpl.expiry = e :: es → passed s.rck.deviceTime e.deadline = false) →
      exec .frameExpiry s = .next s)

/-- ORDER_TIMEOUT: the id is quarantined and failed, in_flight and the loss count move, LINK is raised at loss_limit, and
nothing is corrected. The frames are requeued or returned LOST or EXPIRED, which brings an IDLE station back onto the lists,
with quantum 0 in the middle of a round (R3, R32, R56); those of a LEAVING station are all returned LOST, and its last order clears the record with an UNBIND in line
for the MAC (R8, R183). The last order of a drain ends it (R165), and otherwise a selection run follows (R66, R131, R133,
R134, R152, log entry 7). That the middle of a round is while the round clock runs is the model's reading (log entry 30). Without a passed deadline the row changes nothing (log entry 1). -/
def Obligations.TimedOutOrderIsLost : Prop :=
  ∀ (s : State), s.resetN = false → s.sel.choice = none →
    ((∀ o ∈ s.ord.outstanding, passed s.rck.deviceTime o.deadline = false) → exec .orderTimeout s = .next s)
    ∧ (∀ (o : Order) (pre post : List Order) (i : Nat) (st : Station) (back : List Frame),
      s.ord.outstanding = pre ++ o :: post → passed s.rck.deviceTime o.deadline = true →
      (∀ p ∈ pre, passed s.rck.deviceTime p.deadline = false) → (∀ p ∈ pre ++ post, p.id ≠ o.id) →
      i = o.station → i < 512 → st = s.station i →
      back = (o.frames.filter fun f => !deadlinePassed s.rck.deviceTime f.deadline
        && decide (f.requeues < s.mod.config.requeueMax)).map (fun f => { f with requeues := f.requeues + 1 }) →
      ∃ u : State, exec .orderTimeout s = .next
          (if s.mod.mode = .draining ∧ pre ++ post = [] then u.enterReady else u.selectionRun)
        ∧ { u.ord with cancelPending := s.ord.cancelPending } = { s.ord with
            outstanding := pre ++ post
            quarantine := (if 8 ≤ s.ord.quarantine.length then s.ord.quarantine.drop 1 else s.ord.quarantine) ++ [o.id]
            lossCount := min (s.ord.lossCount + 1) 255
            counters := { s.ord.counters with
              timeouts := min (s.ord.counters.timeouts + 1) 4294967295
              quarantineEvictions := (if 8 ≤ s.ord.quarantine.length
                then min (s.ord.counters.quarantineEvictions + 1) 4294967295
                else s.ord.counters.quarantineEvictions) } }
        ∧ u.mod = (if s.mod.config.lossLimit ≤ min (s.ord.lossCount + 1) 255
            then s.mod.quietSet { s.mod.causes with link := true } else s.mod)
        ∧ u.mgd = { s.mgd with
            linkRaises := (if s.mod.config.lossLimit ≤ min (s.ord.lossCount + 1) 255 ∧ s.mod.causes.link = false
              then min (s.mgd.linkRaises + 1) 4294967295 else s.mgd.linkRaises) }
        ∧ (∀ j, j ≠ i → u.station j = s.station j)
        ∧ (st.state ≠ .leaving →
          u.station i = { st with
            state := if i ≠ 0 ∧ st.state = .idle ∧ back ≠ [] ∧ s.lane i o.lane = [] then .backlogged else st.state
            quantum := if i ≠ 0 ∧ st.state = .idle ∧ back ≠ [] ∧ s.lane i o.lane = [] ∧ s.rck.clocksRunning = true
              then 0 else st.quantum
            failed := min (st.failed + o.frames.length) 4294967295
            inFlight := st.inFlight - 1 }
          ∧ u.fpl = { s.fpl with
            lanes := u.fpl.lanes
            expiry := back.foldl joinExpiry s.fpl.expiry
            framesRequeued := if back = [] then s.fpl.framesRequeued
              else min (s.fpl.framesRequeued + back.length) 4294967295
            returnList := s.fpl.returnList
              ++ (o.frames.filter fun f => deadlinePassed s.rck.deviceTime f.deadline
                  || decide (s.mod.config.requeueMax ≤ f.requeues)).map
                (fun f => ⟨f, if deadlinePassed s.rck.deviceTime f.deadline = true then .expired else .lost⟩) }
          ∧ u.lane i o.lane = back ++ s.lane i o.lane
          ∧ (∀ j l, (j, l) ≠ (i, o.lane) → u.lane j l = s.lane j l)
          ∧ u.sel = { s.sel with
              active := if i ≠ 0 ∧ st.state = .idle ∧ back ≠ [] ∧ s.lane i o.lane = [] ∧ i ∉ s.sel.active
                then s.sel.active ++ [i] else s.sel.active
              prompt := if i ≠ 0 ∧ o.lane = .prompt ∧ back ≠ [] ∧ s.lane i o.lane = [] ∧ i ∉ s.sel.prompt
                  ∧ (st.state = .idle ∨ st.state = .backlogged)
                then s.sel.prompt ++ [i] else s.sel.prompt
              groupDue := if i = 0 ∧ back ≠ [] ∧ s.lane i o.lane = [] ∧ s.dozingCount = 0 then true
                else s.sel.groupDue }
          ∧ u.stt.linkNotes = s.stt.linkNotes ∧ u.rli = s.rli ∧ u.ord.cancelPending = s.ord.cancelPending)
        ∧ (st.state = .leaving →
          u.fpl = { s.fpl with returnList := s.fpl.returnList ++ o.frames.map (fun f => ⟨f, .lost⟩) }
          ∧ u.sel = s.sel
          ∧ (st.inFlight ≤ 1 → u.station i = .cleared st.cohort
              ∧ u.radioLine = s.radioLine ++ [.unbind i] ∧ u.radioServed)
          ∧ (1 < st.inFlight → u.station i = { st with
                failed := min (st.failed + o.frames.length) 4294967295, inFlight := st.inFlight - 1 }
              ∧ u.stt.linkNotes = s.stt.linkNotes ∧ u.rli = s.rli ∧ u.ord.cancelPending = s.ord.cancelPending))
        ∧ { u.rli with outbound := s.rli.outbound } = s.rli ∧ u.stt.radioIgnored = s.stt.radioIgnored
        ∧ u.rck = s.rck ∧ u.coh = s.coh ∧ u.cli = s.cli ∧ u.resetN = s.resetN ∧ u.pending = s.pending)

/-- BLANKING_EXPIRY: the timer becomes STOPPED when its deadline has passed, and neither free_now nor a quiet cause
changes (R145); before the deadline the row changes nothing (log entry 1). -/
def Obligations.BlankingEndsAtItsDeadline : Prop :=
  ∀ s : State, s.resetN = false →
    (∀ d, s.mgd.blanking = some d → passed s.rck.deviceTime d = true →
      exec .blankingExpiry s = .next { s with mgd := { s.mgd with blanking := none } })
    ∧ ((∀ d, s.mgd.blanking = some d → passed s.rck.deviceTime d = false) → exec .blankingExpiry s = .next s)
    ∧ (∀ d, passed s.rck.deviceTime d = true ↔ 0 ≤ (s.rck.deviceTime - d).toInt)

/-! ## Boundaries -/

/-- ROUND_BOUNDARY: the ended round's report is placed, skipped or not due, the round number and the boundary times
advance from the scheduled time, the new round is formed, and a selection run follows; with prompt_sync = 1 it is a prompt
boundary too (R70, R72, R74, R76, R79, R81, log entries 7 and 16). A report is due at or above report_every (log entry 19),
and before its time the row changes nothing (log entry 1). -/
def Obligations.RoundBoundaryBeginsARound : Prop :=
  ∀ (s : State) (cfg : Configuration) (pm : Nat), s.resetN = false → s.sel.choice = none → cfg = s.mod.config →
    pm = clampNat cfg.freeFloorPm 1000 s.mgd.freeNow →
    (s.rck.clocksRunning = false ∨ passed s.rck.deviceTime s.rck.nextRoundAt = false →
      exec .roundBoundary s = .next s)
    ∧ (s.rck.clocksRunning = true → passed s.rck.deviceTime s.rck.nextRoundAt = true →
      ∃ u : State, exec .roundBoundary s = .next u.selectionRun
        ∧ RoundBegun s u s.mgd.freeNow
        ∧ u.rck.round = s.rck.round + 1 ∧ u.rck.lastRoundAt = s.rck.nextRoundAt
        ∧ u.rck.nextRoundAt = s.rck.nextRoundAt + BitVec.ofNat 32 cfg.roundUs
        ∧ u.rck.clocksRunning = true ∧ u.rck.deviceTime = s.rck.deviceTime
        ∧ u.rck.timeRunning = s.rck.timeRunning
        ∧ u.sel = { s.sel with
            groupDue := true, groupAllot := u.sel.groupAllot, groupBudget := u.sel.groupBudget
            promptAllot := u.sel.promptAllot, promptBudget := u.sel.promptBudget }
        ∧ (cfg.promptSync = true →
            u.rck.promptPeriod = s.rck.promptPeriod + 1
            ∧ u.rck.nextPromptAt = s.rck.nextRoundAt + BitVec.ofNat 32 cfg.promptPeriodUs
            ∧ u.sel.promptAllot = cfg.promptPeriodUs * pm * cfg.promptPm / 1000000
            ∧ u.sel.promptBudget = ((cfg.promptPeriodUs * pm * cfg.promptPm / 1000000 : Nat) : Int))
        ∧ (cfg.promptSync = false →
            u.rck.promptPeriod = s.rck.promptPeriod ∧ u.rck.nextPromptAt = s.rck.nextPromptAt
            ∧ u.sel.promptAllot = s.sel.promptAllot ∧ u.sel.promptBudget = s.sel.promptBudget)
        ∧ (cfg.reportEvery = 0 ∨ s.rck.postscaler + 1 < cfg.reportEvery →
            u.cli = s.cli ∧ u.rck.skipped = s.rck.skipped ∧ u.rck.reportsSent = s.rck.reportsSent
            ∧ u.rck.reportsSkipped = s.rck.reportsSkipped
            ∧ u.rck.postscaler = (if cfg.reportEvery = 0 then s.rck.postscaler else s.rck.postscaler + 1))
        ∧ (cfg.reportEvery ≠ 0 → cfg.reportEvery ≤ s.rck.postscaler + 1 → s.cli.outbound.length + 2 ≤ 16 →
            u.rck.postscaler = 0 ∧ u.rck.skipped = 0 ∧ u.rck.reportsSkipped = s.rck.reportsSkipped
            ∧ u.rck.reportsSent = min (s.rck.reportsSent + 1) 4294967295
            ∧ u.cli = s.noticed (.usageReport
              { round := s.rck.round, usable := s.rck.figures.usable, freePm := s.rck.figures.freePm
                groupUsed := (s.station 0).usedRound, promptUsed := s.rck.promptUsed
                activeLength := s.rck.figures.activeLength, weightSum := s.rck.figures.weightSum
                quantaSum := s.rck.figures.quantaSum
                totalCharged := min (s.stt.stations.rows.map Station.usedRound).sum 4294967295
                skipped := s.rck.skipped
                cohorts := ((List.range 32).filter fun c => (s.cohort c).span != 0).map
                  fun c => (c, (s.cohort c).usedRound) }))
        ∧ (cfg.reportEvery ≠ 0 → cfg.reportEvery ≤ s.rck.postscaler + 1 → 16 < s.cli.outbound.length + 2 →
            u.cli = s.cli ∧ u.rck.postscaler = 0 ∧ u.rck.reportsSent = s.rck.reportsSent
            ∧ u.rck.skipped = min (s.rck.skipped + 1) 4294967295
            ∧ u.rck.reportsSkipped = min (s.rck.reportsSkipped + 1) 4294967295)
        ∧ u.rli = s.rli ∧ u.fpl = s.fpl ∧ u.ord = s.ord ∧ u.mgd = s.mgd ∧ u.mod = s.mod
        ∧ u.resetN = s.resetN ∧ u.pending = s.pending)

/-- PROMPT_BOUNDARY: the prompt period number and the next prompt boundary advance from the scheduled time, and the
prompt budget is reset to the new allotment; with prompt_sync = 1 one at or after the next round boundary is not made
(R60, R74, R75, R76, log entry 16); before its time the row changes nothing (log entry 1). -/
def Obligations.PromptBoundaryResetsTheBudget : Prop :=
  ∀ (s : State) (cfg : Configuration) (pm allot : Nat) (t : State), s.resetN = false → s.sel.choice = none →
    cfg = s.mod.config → pm = clampNat cfg.freeFloorPm 1000 s.mgd.freeNow →
    allot = cfg.promptPeriodUs * pm * cfg.promptPm / 1000000 →
    t = { s with
      rck := { s.rck with
        promptPeriod := s.rck.promptPeriod + 1
        nextPromptAt := s.rck.nextPromptAt + BitVec.ofNat 32 cfg.promptPeriodUs }
      sel := { s.sel with promptAllot := allot, promptBudget := (allot : Int) } } →
    (s.rck.clocksRunning = true → passed s.rck.deviceTime s.rck.nextPromptAt = true →
      cfg.promptSync = false ∨ 0 < (s.rck.nextRoundAt - s.rck.nextPromptAt).toInt →
      exec .promptBoundary s = .next t.selectionRun)
    ∧ (s.rck.clocksRunning = false ∨ passed s.rck.deviceTime s.rck.nextPromptAt = false
        ∨ (cfg.promptSync = true ∧ (s.rck.nextRoundAt - s.rck.nextPromptAt).toInt ≤ 0) →
      exec .promptBoundary s = .next s)

/-! ## Selection and order builds -/

/-- A selection run: none outside RUNNING or with a full window; otherwise the group step, the poll step, the prompt step,
the fair pass and the spill pass in this order, each with its choice and its move of a list or the cursor, and nothing
moves when none finds a candidate (R104, R106 to R111, R113). -/
def Obligations.SelectionRunTakesTheFirstCandidate : Prop :=
  ∀ s : State,
    (¬ s.RunOpen → s.selectionRun = s)
    ∧ (s.RunOpen → s.GroupOpen →
      s.selectionRun = { s with sel := { s.sel with
        choice := some { station := 0, lane := .bulk, kind := .group } } })
    ∧ (s.RunOpen → ¬ s.GroupOpen → ∀ i rest l, s.sel.poll = i :: rest → (s.lanesOf i).first = some l →
      s.selectionRun = { s with sel := { s.sel with
        poll := rest, choice := some { station := i, lane := l, kind := .poll } } })
    ∧ (s.RunOpen → ¬ s.GroupOpen → s.sel.poll = [] → ∀ pre i post, 0 < s.sel.promptBudget →
      s.sel.prompt = pre ++ i :: post → (∀ j ∈ pre, (s.station j).held = true) → (s.station i).held = false →
      s.selectionRun = { s with sel := { s.sel with
        prompt := pre ++ post ++ [i], choice := some { station := i, lane := .prompt, kind := .prompt } } })
    ∧ (s.RunOpen → ¬ s.GroupOpen → s.sel.poll = [] → s.PromptShut → s.sel.active.Nodup →
      (∀ pre i post l, s.sel.active = pre ++ i :: post → (∀ j ∈ pre, ¬ s.PassesAbove 0 j) → s.PassesAbove 0 i →
        (s.lanesOf i).first = some l →
        s.selectionRun = { s with sel := { s.sel with
          active := post ++ pre ++ [i], choice := some { station := i, lane := l, kind := .fair } } })
      ∧ ((∀ j ∈ s.sel.active, ¬ s.PassesAbove 0 j) → s.mod.config.spill = true →
        ∀ pre i post l, s.sel.active = pre ++ i :: post →
          (∀ j ∈ pre, ¬ s.PassesAbove (-(s.mod.config.debtLimitUs : Int)) j) →
          s.PassesAbove (-(s.mod.config.debtLimitUs : Int)) i → (s.lanesOf i).first = some l →
          s.selectionRun = { s with sel := { s.sel with
            active := post ++ pre ++ [i], choice := some { station := i, lane := l, kind := .spill } } })
      ∧ ((∀ j ∈ s.sel.active, ¬ s.PassesAbove 0 j) →
        (s.mod.config.spill = false
          ∨ ∀ j ∈ s.sel.active, ¬ s.PassesAbove (-(s.mod.config.debtLimitUs : Int)) j) →
        s.selectionRun = s))
    ∧ (∀ i l, (s.lanesOf i).first = some l ↔
        (s.lane i l ≠ [] ∧ (l = .prompt ∨ s.lane i .prompt = [] ∧ (l = .bulk ∨ s.lane i .bulk = []))))

/-- ORD takes the longest head of the lane that the three tests allow: the first entry always, and no more than the frame
limit, than order_max_us allows, or past an entry with no_agg (R120, R50). -/
def Obligations.AggregateIsTheLongestAdmittedHead : Prop :=
  ∀ (cfg : Configuration) (rate limit : Nat) (lane : List Frame), lane ≠ [] →
    ∃ n, aggregate cfg rate limit lane = lane.take n ∧ 1 ≤ n ∧ n ≤ lane.length
      ∧ (1 < n → n ≤ limit ∧ estimate cfg rate (lane.take n) ≤ cfg.orderMaxUs
          ∧ ∀ f ∈ lane.take n, f.noAgg = false)
      ∧ (n = lane.length ∨ limit ≤ n ∨ cfg.orderMaxUs < estimate cfg rate (lane.take (n + 1))
          ∨ ∃ f ∈ lane.take (n + 1), f.noAgg = true)

/-- ORDER_BUILD of a choice whose lane holds frames: id, take, charges, in_flight, the list moves of the emptied lane, the
order record and its TX_ORDER, and then the next selection run (R3, R48, R49, R61, R62, R78, R98, R99, R101, R105, R119,
R122, R123; that the run belongs to this row is log entry 6). A chosen station is on no poll list in any state of ListInv. -/
def Obligations.OrderBuildIssuesAnOrder : Prop :=
  ∀ (s : State) (c : Choice) (taken left : List Frame) (rate est : Nat) (id : OrderId) (st : Station) (o : Order),
    s.resetN = false → s.sel.choice = some c → c.station ∉ s.sel.poll → st = s.station c.station →
    rate = (if c.station = 0 then s.mod.config.groupRate else st.rate) →
    taken = aggregate s.mod.config rate (if c.kind = .poll then 1 else s.mod.config.orderMaxFrames)
      (s.lane c.station c.lane) →
    s.lane c.station c.lane = taken ++ left → taken ≠ [] →
    est = min (s.mod.config.orderOverheadUs
      + (taken.map fun f => s.mod.config.subframeUs + (f.length * 16 + rate - 1) / rate).sum) 65535 →
    (∀ p ∈ s.ord.outstanding, p.id ≠ id) → id ∉ s.ord.quarantine →
    (∀ k, k < (id - s.ord.nextId).toNat → s.ord.nextId + BitVec.ofNat 8 k ∈ s.ord.quarantine
      ∨ ∃ p ∈ s.ord.outstanding, p.id = s.ord.nextId + BitVec.ofNat 8 k) →
    o = { id := id, station := c.station, lane := c.lane, kind := c.kind, frames := taken, est := est
          issueTime := s.rck.deviceTime
          deadline := s.rck.deviceTime + BitVec.ofNat 32 (s.mod.config.orderTimeoutMs * 1000)
          cohort := st.cohort, round := s.rck.round, promptPeriod := s.rck.promptPeriod, sent := .waiting } →
    ∃ u : State, exec .orderBuild s = .next u.selectionRun
      ∧ u.ord.outstanding.map (fun p => { p with sent := .waiting })
          = (s.ord.outstanding ++ [o]).map (fun p => { p with sent := .waiting })
      ∧ (s.radioFree = 0 → u.ord.outstanding = s.ord.outstanding ++ [o] ∧ u.rli = s.rli
          ∧ u.ord.cancelPending = s.ord.cancelPending ∧ u.stt.linkNotes = s.stt.linkNotes)
      ∧ (0 < s.radioFree → s.ord.cancelPending = false → s.stt.linkNotes = [] →
          (∀ p ∈ s.ord.outstanding, p.sent = .placed) →
          u.ord.outstanding = s.ord.outstanding ++ [{ o with sent := .placed }]
          ∧ u.rli = { s.rli with outbound := s.rli.outbound ++ [.txOrder
              { id := id, kind := c.kind, station := c.station, lane := c.lane, est := est
                frames := taken.map fun f => (f.token, f.length) }] }
          ∧ u.ord.cancelPending = false ∧ u.stt.linkNotes = [])
      ∧ u.ord.nextId = id + 1 ∧ u.ord.quarantine = s.ord.quarantine ∧ u.ord.lossCount = s.ord.lossCount
      ∧ u.ord.counters = { s.ord.counters with
          ordersIssued := min (s.ord.counters.ordersIssued + 1) 4294967295 }
      ∧ u.station c.station = { st with
          state := (u.station c.station).state
          balance := if c.station = 0 then st.balance
            else clampInt (-(s.mod.config.debtLimitUs : Int)) st.cap (st.balance - est)
          usedRound := min (st.usedRound + est) 4294967295
          inFlight := st.inFlight + 1 }
      ∧ ((u.station c.station).state =
          if c.station ≠ 0 ∧ st.state = .backlogged ∧ (u.lanesOf c.station).allEmpty = true then .idle
          else st.state)
      ∧ (∀ j, j ≠ c.station → u.station j = s.station j)
      ∧ u.lane c.station c.lane = left ∧ (∀ j l, (j, l) ≠ (c.station, c.lane) → u.lane j l = s.lane j l)
      ∧ u.fpl = { s.fpl with
          lanes := u.fpl.lanes
          expiry := s.fpl.expiry.filter fun e => !taken.any fun f => f.sequence == e.sequence }
      ∧ (∀ k, st.cohort = some k → k < 32 → u.cohort k = { s.cohort k with
          budget := max ((s.cohort k).budget - est) (-65535)
          usedRound := min ((s.cohort k).usedRound + est) 4294967295 })
      ∧ (∀ k, st.cohort ≠ some k → u.cohort k = s.cohort k)
      ∧ u.sel = { s.sel with
          choice := none
          active := if c.station ≠ 0 ∧ st.state = .backlogged ∧ (u.lanesOf c.station).allEmpty = true
            then s.sel.active.erase c.station else s.sel.active
          prompt := if c.station ≠ 0 ∧ st.state = .backlogged ∧ c.lane = .prompt ∧ left = []
            then s.sel.prompt.erase c.station else s.sel.prompt
          promptBudget := if c.kind = .prompt then max (s.sel.promptBudget - est) (-65535)
            else s.sel.promptBudget
          groupBudget := if c.kind = .group then max (s.sel.groupBudget - est) (-65535) else s.sel.groupBudget
          groupDue := if (c.station = 0 ∧ left = []) ∨ (c.kind = .group ∧ u.sel.groupBudget ≤ 0) then false
            else s.sel.groupDue }
      ∧ u.rck = { s.rck with
          promptUsed := (if c.kind = .prompt then min (s.rck.promptUsed + est) 4294967295
            else s.rck.promptUsed) }
      ∧ u.stt.radioIgnored = s.stt.radioIgnored
      ∧ u.cli = s.cli ∧ u.mgd = s.mgd ∧ u.mod = s.mod ∧ u.resetN = s.resetN ∧ u.pending = s.pending

/-- ORDER_BUILD of a choice whose lane is empty issues no order and counts it, a POLL choice is answered with a
POLL_EMPTY note unless one is queued, and the next run follows; without a choice the row changes nothing (R106, R121,
log entries 1 and 6). -/
def Obligations.EmptyBuildIssuesNoOrder : Prop :=
  ∀ s : State, s.resetN = false →
    (s.sel.choice = none → exec .orderBuild s = .next s)
    ∧ (∀ (c : Choice) (t : State), s.sel.choice = some c → s.lane c.station c.lane = [] →
      t = { s with
        sel := { s.sel with choice := none }
        ord := { s.ord with counters := { s.ord.counters with
          ordersEmpty := min (s.ord.counters.ordersEmpty + 1) 4294967295 } } } →
      (c.kind ≠ .poll ∨ LinkNote.pollEmpty c.station ∈ s.stt.linkNotes →
        exec .orderBuild s = .next t.selectionRun)
      ∧ (c.kind = .poll → LinkNote.pollEmpty c.station ∉ s.stt.linkNotes →
        ∃ u : State, exec .orderBuild s = .next u.selectionRun
          ∧ u.radioLine = s.radioLine ++ [.pollEmpty c.station] ∧ u.radioServed
          ∧ { u with
              rli := { u.rli with outbound := t.rli.outbound }
              stt := { u.stt with linkNotes := t.stt.linkNotes }
              ord := { u.ord with cancelPending := t.ord.cancelPending } } = t))

/-- The quanta of a boundary never exceed the pool, and fall short of it by less than one microsecond for each station on
the active list (R56); a rate update stays within 2..2400 (R51). -/
def Obligations.QuantaStayWithinThePool : Prop :=
  (∀ (s : State) (pool : Nat),
    (s.sel.active.map (s.boundaryQuantum pool)).sum ≤ pool
    ∧ (0 < s.boundaryWeight → pool < (s.sel.active.map (s.boundaryQuantum pool)).sum + s.sel.active.length))
  ∧ (∀ old q, 2 ≤ blendRate old q ∧ blendRate old q ≤ 2400)
  ∧ (∀ old q, 2 ≤ old → old ≤ 2400 → 2 ≤ q → q ≤ 2400 → blendRate old q = (3 * old + q + 2) / 4)

/-! ## Encodings -/

/-- Fields are sent least significant byte first, every record's header carries its body length, the bodies have the
lengths of their types, and the worked encoding of order 37 and of its outcome is as given (R188, R189, R191 to R194). -/
def Obligations.RecordsAreEncodedAsSpecified : Prop :=
  (∀ size n, leNat (leBytes size n) = n % 256 ^ size ∧ (leBytes size n).length = size)
  ∧ (∀ (typ tag : Byte) (body : List Byte), body.length ≤ 512 →
      (frameRecord typ tag body).length = 4 + body.length
      ∧ leNat ((frameRecord typ tag body).drop 2 |>.take 2) = body.length)
  ∧ (∀ o : TxOrder, o.bytes.length = 8 + 6 * o.frames.length)
  ∧ (∀ es : List (Word32 × FrameResult), (tokenReturnBytes es).length = 2 + 5 * es.length)
  ∧ (∀ u : UsageReport, u.bytes.length = 38 + 5 * u.cohorts.length)
  ∧ (∀ m q c, (alertBytes m q c).length = 16)
  ∧ (∀ b : StatusBody, (Reply.status b).bytes.length = 18)
  ∧ (∀ r : StationRow, r.bytes.length = 44) ∧ (∀ r : CohortRow, r.bytes.length = 26)
  ∧ (∀ r : OutstandingRow, r.bytes.length = 24) ∧ (∀ r : ActiveRow, r.bytes.length = 4)
  ∧ (RadioRecord.txOrder { id := 37, kind := .fair, station := 120, lane := .bulk, est := 332
                           frames := [(0x1001, 1500), (0x1002, 1500), (0x1003, 600)] }).bytes
      = [0x53, 0x00, 0x1A, 0x00, 0x25, 0x03, 0x78, 0x00, 0x01, 0x03, 0x4C, 0x01,
          0x01, 0x10, 0x00, 0x00, 0xDC, 0x05, 0x02, 0x10, 0x00, 0x00, 0xDC, 0x05,
          0x03, 0x10, 0x00, 0x00, 0x58, 0x02]
  ∧ parseMacRecord [0x60, 0x00, 0x0A, 0x00, 0x25, 0x02, 0x2C, 0x01, 0x2C, 0x01, 0x03, 0x00, 0x05, 0x00]
      = some (.txOutcome { id := 37, attempts := 2, airtime := 300, finalRate := 300, frameCount := 3
                           deliveredMap := 5 })

/-! ## Invariants -/

/-- The modes, clocks, quiet causes, orders, ids and choices stay as the rules say in every step. -/
def Obligations.StepKeepsModesAndOrders : Prop :=
  ∀ s t : State, s.ModeInv → s.OrderInv → step s = .next t → t.ModeInv ∧ t.OrderInv

/-- FREE, QUEUED, IN_FLIGHT and RETURNING entries always sum to 4,096 (R23). -/
def Obligations.StepKeepsThePool : Prop :=
  ∀ s t : State, s.ModeInv → s.OrderInv → s.PoolInv → step s = .next t → t.PoolInv

/-- The active list is the BACKLOGGED client stations, the prompt and poll lists are as R99 and R100 say, and in_flight
counts the outstanding orders naming a station, in every step (R3, R17, R25, R96, R99, R100). -/
def Obligations.StepKeepsTheLists : Prop :=
  ∀ s t : State, s.ModeInv → s.OrderInv → s.ListInv → step s = .next t → t.ListInv

/-- Every balance stays within [−debt_limit_us, cap], every rate within 2..2400 and every budget within [−65,535, its
allotment], in every step (R2, R16, R18, R62, R64, R65). -/
def Obligations.StepKeepsTheAccounts : Prop :=
  ∀ s t : State, s.ModeInv → s.OrderInv → s.ListInv → s.AccountInv → step s = .next t → t.AccountInv

/-- The queues of both links and the ATTN pulses stay within their capacities in every step (R174, R176, R178, R179,
R182, R184). -/
def Obligations.StepKeepsTheQueues : Prop :=
  ∀ s t : State, s.QueueInv → step s = .next t → t.QueueInv

/-- Every invariant holds at reset and while RESET_N is asserted. -/
def Obligations.InvariantsHoldAtReset : Prop :=
  ∀ asserted : Bool, (State.pinResetValues asserted).ModeInv ∧ (State.pinResetValues asserted).OrderInv
    ∧ (State.pinResetValues asserted).PoolInv ∧ (State.pinResetValues asserted).ListInv
    ∧ (State.pinResetValues asserted).AccountInv ∧ (State.pinResetValues asserted).QueueInv
    ∧ State.pinResetValues false = State.reset

end
end

