-- ==== Sys2Proof/Laws/State.lean ====
section
/-!
SUPPORT. Each field of State under each block update, and the records and lanes that the accessors read there. All true
by rfl: no later proof unfolds a record update.
-/

namespace Sys2Proof.Machine

/-! ## updating cli -/

@[simp] theorem updCli_cli (s : State) (f : Cli → Cli) : (s.updCli f).cli = f s.cli := rfl
@[simp] theorem updCli_rli (s : State) (f : Cli → Cli) : (s.updCli f).rli = s.rli := rfl
@[simp] theorem updCli_stt (s : State) (f : Cli → Cli) : (s.updCli f).stt = s.stt := rfl
@[simp] theorem updCli_fpl (s : State) (f : Cli → Cli) : (s.updCli f).fpl = s.fpl := rfl
@[simp] theorem updCli_rck (s : State) (f : Cli → Cli) : (s.updCli f).rck = s.rck := rfl
@[simp] theorem updCli_coh (s : State) (f : Cli → Cli) : (s.updCli f).coh = s.coh := rfl
@[simp] theorem updCli_sel (s : State) (f : Cli → Cli) : (s.updCli f).sel = s.sel := rfl
@[simp] theorem updCli_ord (s : State) (f : Cli → Cli) : (s.updCli f).ord = s.ord := rfl
@[simp] theorem updCli_mgd (s : State) (f : Cli → Cli) : (s.updCli f).mgd = s.mgd := rfl
@[simp] theorem updCli_mod (s : State) (f : Cli → Cli) : (s.updCli f).mod = s.mod := rfl
@[simp] theorem updCli_resetN (s : State) (f : Cli → Cli) : (s.updCli f).resetN = s.resetN := rfl
@[simp] theorem updCli_pending (s : State) (f : Cli → Cli) : (s.updCli f).pending = s.pending := rfl
@[simp] theorem updCli_station (s : State) (f : Cli → Cli) (i : Nat) : (s.updCli f).station i = s.station i := rfl
@[simp] theorem updCli_dozingCount (s : State) (f : Cli → Cli) : (s.updCli f).dozingCount = s.dozingCount := rfl
@[simp] theorem updCli_lanesOf (s : State) (f : Cli → Cli) (i : Nat) : (s.updCli f).lanesOf i = s.lanesOf i := rfl
@[simp] theorem updCli_lane (s : State) (f : Cli → Cli) (i : Nat) (l : Lane) : (s.updCli f).lane i l = s.lane i l := rfl
@[simp] theorem updCli_cohort (s : State) (f : Cli → Cli) (c : Nat) : (s.updCli f).cohort c = s.cohort c := rfl
@[simp] theorem updCli_radioFree (s : State) (f : Cli → Cli) : (s.updCli f).radioFree = s.radioFree := rfl

/-! ## updating rli -/

@[simp] theorem updRli_cli (s : State) (f : Rli → Rli) : (s.updRli f).cli = s.cli := rfl
@[simp] theorem updRli_rli (s : State) (f : Rli → Rli) : (s.updRli f).rli = f s.rli := rfl
@[simp] theorem updRli_stt (s : State) (f : Rli → Rli) : (s.updRli f).stt = s.stt := rfl
@[simp] theorem updRli_fpl (s : State) (f : Rli → Rli) : (s.updRli f).fpl = s.fpl := rfl
@[simp] theorem updRli_rck (s : State) (f : Rli → Rli) : (s.updRli f).rck = s.rck := rfl
@[simp] theorem updRli_coh (s : State) (f : Rli → Rli) : (s.updRli f).coh = s.coh := rfl
@[simp] theorem updRli_sel (s : State) (f : Rli → Rli) : (s.updRli f).sel = s.sel := rfl
@[simp] theorem updRli_ord (s : State) (f : Rli → Rli) : (s.updRli f).ord = s.ord := rfl
@[simp] theorem updRli_mgd (s : State) (f : Rli → Rli) : (s.updRli f).mgd = s.mgd := rfl
@[simp] theorem updRli_mod (s : State) (f : Rli → Rli) : (s.updRli f).mod = s.mod := rfl
@[simp] theorem updRli_resetN (s : State) (f : Rli → Rli) : (s.updRli f).resetN = s.resetN := rfl
@[simp] theorem updRli_pending (s : State) (f : Rli → Rli) : (s.updRli f).pending = s.pending := rfl
@[simp] theorem updRli_station (s : State) (f : Rli → Rli) (i : Nat) : (s.updRli f).station i = s.station i := rfl
@[simp] theorem updRli_dozingCount (s : State) (f : Rli → Rli) : (s.updRli f).dozingCount = s.dozingCount := rfl
@[simp] theorem updRli_lanesOf (s : State) (f : Rli → Rli) (i : Nat) : (s.updRli f).lanesOf i = s.lanesOf i := rfl
@[simp] theorem updRli_lane (s : State) (f : Rli → Rli) (i : Nat) (l : Lane) : (s.updRli f).lane i l = s.lane i l := rfl
@[simp] theorem updRli_cohort (s : State) (f : Rli → Rli) (c : Nat) : (s.updRli f).cohort c = s.cohort c := rfl
@[simp] theorem updRli_outFree (s : State) (f : Rli → Rli) : (s.updRli f).outFree = s.outFree := rfl

/-! ## updating stt -/

@[simp] theorem updStt_cli (s : State) (f : Stt → Stt) : (s.updStt f).cli = s.cli := rfl
@[simp] theorem updStt_rli (s : State) (f : Stt → Stt) : (s.updStt f).rli = s.rli := rfl
@[simp] theorem updStt_stt (s : State) (f : Stt → Stt) : (s.updStt f).stt = f s.stt := rfl
@[simp] theorem updStt_fpl (s : State) (f : Stt → Stt) : (s.updStt f).fpl = s.fpl := rfl
@[simp] theorem updStt_rck (s : State) (f : Stt → Stt) : (s.updStt f).rck = s.rck := rfl
@[simp] theorem updStt_coh (s : State) (f : Stt → Stt) : (s.updStt f).coh = s.coh := rfl
@[simp] theorem updStt_sel (s : State) (f : Stt → Stt) : (s.updStt f).sel = s.sel := rfl
@[simp] theorem updStt_ord (s : State) (f : Stt → Stt) : (s.updStt f).ord = s.ord := rfl
@[simp] theorem updStt_mgd (s : State) (f : Stt → Stt) : (s.updStt f).mgd = s.mgd := rfl
@[simp] theorem updStt_mod (s : State) (f : Stt → Stt) : (s.updStt f).mod = s.mod := rfl
@[simp] theorem updStt_resetN (s : State) (f : Stt → Stt) : (s.updStt f).resetN = s.resetN := rfl
@[simp] theorem updStt_pending (s : State) (f : Stt → Stt) : (s.updStt f).pending = s.pending := rfl
@[simp] theorem updStt_lanesOf (s : State) (f : Stt → Stt) (i : Nat) : (s.updStt f).lanesOf i = s.lanesOf i := rfl
@[simp] theorem updStt_lane (s : State) (f : Stt → Stt) (i : Nat) (l : Lane) : (s.updStt f).lane i l = s.lane i l := rfl
@[simp] theorem updStt_cohort (s : State) (f : Stt → Stt) (c : Nat) : (s.updStt f).cohort c = s.cohort c := rfl
@[simp] theorem updStt_outFree (s : State) (f : Stt → Stt) : (s.updStt f).outFree = s.outFree := rfl
@[simp] theorem updStt_radioFree (s : State) (f : Stt → Stt) : (s.updStt f).radioFree = s.radioFree := rfl

/-! ## updating fpl -/

@[simp] theorem updFpl_cli (s : State) (f : Fpl → Fpl) : (s.updFpl f).cli = s.cli := rfl
@[simp] theorem updFpl_rli (s : State) (f : Fpl → Fpl) : (s.updFpl f).rli = s.rli := rfl
@[simp] theorem updFpl_stt (s : State) (f : Fpl → Fpl) : (s.updFpl f).stt = s.stt := rfl
@[simp] theorem updFpl_fpl (s : State) (f : Fpl → Fpl) : (s.updFpl f).fpl = f s.fpl := rfl
@[simp] theorem updFpl_rck (s : State) (f : Fpl → Fpl) : (s.updFpl f).rck = s.rck := rfl
@[simp] theorem updFpl_coh (s : State) (f : Fpl → Fpl) : (s.updFpl f).coh = s.coh := rfl
@[simp] theorem updFpl_sel (s : State) (f : Fpl → Fpl) : (s.updFpl f).sel = s.sel := rfl
@[simp] theorem updFpl_ord (s : State) (f : Fpl → Fpl) : (s.updFpl f).ord = s.ord := rfl
@[simp] theorem updFpl_mgd (s : State) (f : Fpl → Fpl) : (s.updFpl f).mgd = s.mgd := rfl
@[simp] theorem updFpl_mod (s : State) (f : Fpl → Fpl) : (s.updFpl f).mod = s.mod := rfl
@[simp] theorem updFpl_resetN (s : State) (f : Fpl → Fpl) : (s.updFpl f).resetN = s.resetN := rfl
@[simp] theorem updFpl_pending (s : State) (f : Fpl → Fpl) : (s.updFpl f).pending = s.pending := rfl
@[simp] theorem updFpl_station (s : State) (f : Fpl → Fpl) (i : Nat) : (s.updFpl f).station i = s.station i := rfl
@[simp] theorem updFpl_dozingCount (s : State) (f : Fpl → Fpl) : (s.updFpl f).dozingCount = s.dozingCount := rfl
@[simp] theorem updFpl_cohort (s : State) (f : Fpl → Fpl) (c : Nat) : (s.updFpl f).cohort c = s.cohort c := rfl
@[simp] theorem updFpl_outFree (s : State) (f : Fpl → Fpl) : (s.updFpl f).outFree = s.outFree := rfl
@[simp] theorem updFpl_radioFree (s : State) (f : Fpl → Fpl) : (s.updFpl f).radioFree = s.radioFree := rfl

/-! ## updating rck -/

@[simp] theorem updRck_cli (s : State) (f : Rck → Rck) : (s.updRck f).cli = s.cli := rfl
@[simp] theorem updRck_rli (s : State) (f : Rck → Rck) : (s.updRck f).rli = s.rli := rfl
@[simp] theorem updRck_stt (s : State) (f : Rck → Rck) : (s.updRck f).stt = s.stt := rfl
@[simp] theorem updRck_fpl (s : State) (f : Rck → Rck) : (s.updRck f).fpl = s.fpl := rfl
@[simp] theorem updRck_rck (s : State) (f : Rck → Rck) : (s.updRck f).rck = f s.rck := rfl
@[simp] theorem updRck_coh (s : State) (f : Rck → Rck) : (s.updRck f).coh = s.coh := rfl
@[simp] theorem updRck_sel (s : State) (f : Rck → Rck) : (s.updRck f).sel = s.sel := rfl
@[simp] theorem updRck_ord (s : State) (f : Rck → Rck) : (s.updRck f).ord = s.ord := rfl
@[simp] theorem updRck_mgd (s : State) (f : Rck → Rck) : (s.updRck f).mgd = s.mgd := rfl
@[simp] theorem updRck_mod (s : State) (f : Rck → Rck) : (s.updRck f).mod = s.mod := rfl
@[simp] theorem updRck_resetN (s : State) (f : Rck → Rck) : (s.updRck f).resetN = s.resetN := rfl
@[simp] theorem updRck_pending (s : State) (f : Rck → Rck) : (s.updRck f).pending = s.pending := rfl
@[simp] theorem updRck_station (s : State) (f : Rck → Rck) (i : Nat) : (s.updRck f).station i = s.station i := rfl
@[simp] theorem updRck_dozingCount (s : State) (f : Rck → Rck) : (s.updRck f).dozingCount = s.dozingCount := rfl
@[simp] theorem updRck_lanesOf (s : State) (f : Rck → Rck) (i : Nat) : (s.updRck f).lanesOf i = s.lanesOf i := rfl
@[simp] theorem updRck_lane (s : State) (f : Rck → Rck) (i : Nat) (l : Lane) : (s.updRck f).lane i l = s.lane i l := rfl
@[simp] theorem updRck_cohort (s : State) (f : Rck → Rck) (c : Nat) : (s.updRck f).cohort c = s.cohort c := rfl
@[simp] theorem updRck_outFree (s : State) (f : Rck → Rck) : (s.updRck f).outFree = s.outFree := rfl
@[simp] theorem updRck_radioFree (s : State) (f : Rck → Rck) : (s.updRck f).radioFree = s.radioFree := rfl

/-! ## updating coh -/

@[simp] theorem updCoh_cli (s : State) (f : Coh → Coh) : (s.updCoh f).cli = s.cli := rfl
@[simp] theorem updCoh_rli (s : State) (f : Coh → Coh) : (s.updCoh f).rli = s.rli := rfl
@[simp] theorem updCoh_stt (s : State) (f : Coh → Coh) : (s.updCoh f).stt = s.stt := rfl
@[simp] theorem updCoh_fpl (s : State) (f : Coh → Coh) : (s.updCoh f).fpl = s.fpl := rfl
@[simp] theorem updCoh_rck (s : State) (f : Coh → Coh) : (s.updCoh f).rck = s.rck := rfl
@[simp] theorem updCoh_coh (s : State) (f : Coh → Coh) : (s.updCoh f).coh = f s.coh := rfl
@[simp] theorem updCoh_sel (s : State) (f : Coh → Coh) : (s.updCoh f).sel = s.sel := rfl
@[simp] theorem updCoh_ord (s : State) (f : Coh → Coh) : (s.updCoh f).ord = s.ord := rfl
@[simp] theorem updCoh_mgd (s : State) (f : Coh → Coh) : (s.updCoh f).mgd = s.mgd := rfl
@[simp] theorem updCoh_mod (s : State) (f : Coh → Coh) : (s.updCoh f).mod = s.mod := rfl
@[simp] theorem updCoh_resetN (s : State) (f : Coh → Coh) : (s.updCoh f).resetN = s.resetN := rfl
@[simp] theorem updCoh_pending (s : State) (f : Coh → Coh) : (s.updCoh f).pending = s.pending := rfl
@[simp] theorem updCoh_station (s : State) (f : Coh → Coh) (i : Nat) : (s.updCoh f).station i = s.station i := rfl
@[simp] theorem updCoh_dozingCount (s : State) (f : Coh → Coh) : (s.updCoh f).dozingCount = s.dozingCount := rfl
@[simp] theorem updCoh_lanesOf (s : State) (f : Coh → Coh) (i : Nat) : (s.updCoh f).lanesOf i = s.lanesOf i := rfl
@[simp] theorem updCoh_lane (s : State) (f : Coh → Coh) (i : Nat) (l : Lane) : (s.updCoh f).lane i l = s.lane i l := rfl
@[simp] theorem updCoh_outFree (s : State) (f : Coh → Coh) : (s.updCoh f).outFree = s.outFree := rfl
@[simp] theorem updCoh_radioFree (s : State) (f : Coh → Coh) : (s.updCoh f).radioFree = s.radioFree := rfl

/-! ## updating sel -/

@[simp] theorem updSel_cli (s : State) (f : Sel → Sel) : (s.updSel f).cli = s.cli := rfl
@[simp] theorem updSel_rli (s : State) (f : Sel → Sel) : (s.updSel f).rli = s.rli := rfl
@[simp] theorem updSel_stt (s : State) (f : Sel → Sel) : (s.updSel f).stt = s.stt := rfl
@[simp] theorem updSel_fpl (s : State) (f : Sel → Sel) : (s.updSel f).fpl = s.fpl := rfl
@[simp] theorem updSel_rck (s : State) (f : Sel → Sel) : (s.updSel f).rck = s.rck := rfl
@[simp] theorem updSel_coh (s : State) (f : Sel → Sel) : (s.updSel f).coh = s.coh := rfl
@[simp] theorem updSel_sel (s : State) (f : Sel → Sel) : (s.updSel f).sel = f s.sel := rfl
@[simp] theorem updSel_ord (s : State) (f : Sel → Sel) : (s.updSel f).ord = s.ord := rfl
@[simp] theorem updSel_mgd (s : State) (f : Sel → Sel) : (s.updSel f).mgd = s.mgd := rfl
@[simp] theorem updSel_mod (s : State) (f : Sel → Sel) : (s.updSel f).mod = s.mod := rfl
@[simp] theorem updSel_resetN (s : State) (f : Sel → Sel) : (s.updSel f).resetN = s.resetN := rfl
@[simp] theorem updSel_pending (s : State) (f : Sel → Sel) : (s.updSel f).pending = s.pending := rfl
@[simp] theorem updSel_station (s : State) (f : Sel → Sel) (i : Nat) : (s.updSel f).station i = s.station i := rfl
@[simp] theorem updSel_dozingCount (s : State) (f : Sel → Sel) : (s.updSel f).dozingCount = s.dozingCount := rfl
@[simp] theorem updSel_lanesOf (s : State) (f : Sel → Sel) (i : Nat) : (s.updSel f).lanesOf i = s.lanesOf i := rfl
@[simp] theorem updSel_lane (s : State) (f : Sel → Sel) (i : Nat) (l : Lane) : (s.updSel f).lane i l = s.lane i l := rfl
@[simp] theorem updSel_cohort (s : State) (f : Sel → Sel) (c : Nat) : (s.updSel f).cohort c = s.cohort c := rfl
@[simp] theorem updSel_outFree (s : State) (f : Sel → Sel) : (s.updSel f).outFree = s.outFree := rfl
@[simp] theorem updSel_radioFree (s : State) (f : Sel → Sel) : (s.updSel f).radioFree = s.radioFree := rfl

/-! ## updating ord -/

@[simp] theorem updOrd_cli (s : State) (f : Ord → Ord) : (s.updOrd f).cli = s.cli := rfl
@[simp] theorem updOrd_rli (s : State) (f : Ord → Ord) : (s.updOrd f).rli = s.rli := rfl
@[simp] theorem updOrd_stt (s : State) (f : Ord → Ord) : (s.updOrd f).stt = s.stt := rfl
@[simp] theorem updOrd_fpl (s : State) (f : Ord → Ord) : (s.updOrd f).fpl = s.fpl := rfl
@[simp] theorem updOrd_rck (s : State) (f : Ord → Ord) : (s.updOrd f).rck = s.rck := rfl
@[simp] theorem updOrd_coh (s : State) (f : Ord → Ord) : (s.updOrd f).coh = s.coh := rfl
@[simp] theorem updOrd_sel (s : State) (f : Ord → Ord) : (s.updOrd f).sel = s.sel := rfl
@[simp] theorem updOrd_ord (s : State) (f : Ord → Ord) : (s.updOrd f).ord = f s.ord := rfl
@[simp] theorem updOrd_mgd (s : State) (f : Ord → Ord) : (s.updOrd f).mgd = s.mgd := rfl
@[simp] theorem updOrd_mod (s : State) (f : Ord → Ord) : (s.updOrd f).mod = s.mod := rfl
@[simp] theorem updOrd_resetN (s : State) (f : Ord → Ord) : (s.updOrd f).resetN = s.resetN := rfl
@[simp] theorem updOrd_pending (s : State) (f : Ord → Ord) : (s.updOrd f).pending = s.pending := rfl
@[simp] theorem updOrd_station (s : State) (f : Ord → Ord) (i : Nat) : (s.updOrd f).station i = s.station i := rfl
@[simp] theorem updOrd_dozingCount (s : State) (f : Ord → Ord) : (s.updOrd f).dozingCount = s.dozingCount := rfl
@[simp] theorem updOrd_lanesOf (s : State) (f : Ord → Ord) (i : Nat) : (s.updOrd f).lanesOf i = s.lanesOf i := rfl
@[simp] theorem updOrd_lane (s : State) (f : Ord → Ord) (i : Nat) (l : Lane) : (s.updOrd f).lane i l = s.lane i l := rfl
@[simp] theorem updOrd_cohort (s : State) (f : Ord → Ord) (c : Nat) : (s.updOrd f).cohort c = s.cohort c := rfl
@[simp] theorem updOrd_outFree (s : State) (f : Ord → Ord) : (s.updOrd f).outFree = s.outFree := rfl
@[simp] theorem updOrd_radioFree (s : State) (f : Ord → Ord) : (s.updOrd f).radioFree = s.radioFree := rfl

/-! ## updating mgd -/

@[simp] theorem updMgd_cli (s : State) (f : Mgd → Mgd) : (s.updMgd f).cli = s.cli := rfl
@[simp] theorem updMgd_rli (s : State) (f : Mgd → Mgd) : (s.updMgd f).rli = s.rli := rfl
@[simp] theorem updMgd_stt (s : State) (f : Mgd → Mgd) : (s.updMgd f).stt = s.stt := rfl
@[simp] theorem updMgd_fpl (s : State) (f : Mgd → Mgd) : (s.updMgd f).fpl = s.fpl := rfl
@[simp] theorem updMgd_rck (s : State) (f : Mgd → Mgd) : (s.updMgd f).rck = s.rck := rfl
@[simp] theorem updMgd_coh (s : State) (f : Mgd → Mgd) : (s.updMgd f).coh = s.coh := rfl
@[simp] theorem updMgd_sel (s : State) (f : Mgd → Mgd) : (s.updMgd f).sel = s.sel := rfl
@[simp] theorem updMgd_ord (s : State) (f : Mgd → Mgd) : (s.updMgd f).ord = s.ord := rfl
@[simp] theorem updMgd_mgd (s : State) (f : Mgd → Mgd) : (s.updMgd f).mgd = f s.mgd := rfl
@[simp] theorem updMgd_mod (s : State) (f : Mgd → Mgd) : (s.updMgd f).mod = s.mod := rfl
@[simp] theorem updMgd_resetN (s : State) (f : Mgd → Mgd) : (s.updMgd f).resetN = s.resetN := rfl
@[simp] theorem updMgd_pending (s : State) (f : Mgd → Mgd) : (s.updMgd f).pending = s.pending := rfl
@[simp] theorem updMgd_station (s : State) (f : Mgd → Mgd) (i : Nat) : (s.updMgd f).station i = s.station i := rfl
@[simp] theorem updMgd_dozingCount (s : State) (f : Mgd → Mgd) : (s.updMgd f).dozingCount = s.dozingCount := rfl
@[simp] theorem updMgd_lanesOf (s : State) (f : Mgd → Mgd) (i : Nat) : (s.updMgd f).lanesOf i = s.lanesOf i := rfl
@[simp] theorem updMgd_lane (s : State) (f : Mgd → Mgd) (i : Nat) (l : Lane) : (s.updMgd f).lane i l = s.lane i l := rfl
@[simp] theorem updMgd_cohort (s : State) (f : Mgd → Mgd) (c : Nat) : (s.updMgd f).cohort c = s.cohort c := rfl
@[simp] theorem updMgd_outFree (s : State) (f : Mgd → Mgd) : (s.updMgd f).outFree = s.outFree := rfl
@[simp] theorem updMgd_radioFree (s : State) (f : Mgd → Mgd) : (s.updMgd f).radioFree = s.radioFree := rfl

/-! ## updating mod -/

@[simp] theorem updMod_cli (s : State) (f : Mod → Mod) : (s.updMod f).cli = s.cli := rfl
@[simp] theorem updMod_rli (s : State) (f : Mod → Mod) : (s.updMod f).rli = s.rli := rfl
@[simp] theorem updMod_stt (s : State) (f : Mod → Mod) : (s.updMod f).stt = s.stt := rfl
@[simp] theorem updMod_fpl (s : State) (f : Mod → Mod) : (s.updMod f).fpl = s.fpl := rfl
@[simp] theorem updMod_rck (s : State) (f : Mod → Mod) : (s.updMod f).rck = s.rck := rfl
@[simp] theorem updMod_coh (s : State) (f : Mod → Mod) : (s.updMod f).coh = s.coh := rfl
@[simp] theorem updMod_sel (s : State) (f : Mod → Mod) : (s.updMod f).sel = s.sel := rfl
@[simp] theorem updMod_ord (s : State) (f : Mod → Mod) : (s.updMod f).ord = s.ord := rfl
@[simp] theorem updMod_mgd (s : State) (f : Mod → Mod) : (s.updMod f).mgd = s.mgd := rfl
@[simp] theorem updMod_mod (s : State) (f : Mod → Mod) : (s.updMod f).mod = f s.mod := rfl
@[simp] theorem updMod_resetN (s : State) (f : Mod → Mod) : (s.updMod f).resetN = s.resetN := rfl
@[simp] theorem updMod_pending (s : State) (f : Mod → Mod) : (s.updMod f).pending = s.pending := rfl
@[simp] theorem updMod_station (s : State) (f : Mod → Mod) (i : Nat) : (s.updMod f).station i = s.station i := rfl
@[simp] theorem updMod_dozingCount (s : State) (f : Mod → Mod) : (s.updMod f).dozingCount = s.dozingCount := rfl
@[simp] theorem updMod_lanesOf (s : State) (f : Mod → Mod) (i : Nat) : (s.updMod f).lanesOf i = s.lanesOf i := rfl
@[simp] theorem updMod_lane (s : State) (f : Mod → Mod) (i : Nat) (l : Lane) : (s.updMod f).lane i l = s.lane i l := rfl
@[simp] theorem updMod_cohort (s : State) (f : Mod → Mod) (c : Nat) : (s.updMod f).cohort c = s.cohort c := rfl
@[simp] theorem updMod_outFree (s : State) (f : Mod → Mod) : (s.updMod f).outFree = s.outFree := rfl
@[simp] theorem updMod_radioFree (s : State) (f : Mod → Mod) : (s.updMod f).radioFree = s.radioFree := rfl

end Sys2Proof.Machine
end

