-- ==== Sys2Proof/Laws/Tables.lean ====
section
/-!
SUPPORT. Reading a table after one record, or every record, has changed; and with it what the accessors of station
records, cohort records and lanes read after an update of one of them.
-/

namespace Sys2Proof

variable {α : Type} {n : Nat}

theorem Table.get_modify (t : Table α n) (d : α) (i j : Nat) (f : α → α) :
    (t.modify i f).get d j = if i = j ∧ j < n then f (t.get d j) else t.get d j := by
  have hs := t.size
  by_cases hj : j < n
  · have hj' : j < t.rows.length := by omega
    simp [Table.get, Table.modify, List.getD_eq_getElem?_getD, hj, hj']
    split <;> simp_all
  · have hj' : t.rows.length ≤ j := by omega
    simp [Table.get, Table.modify, List.getD_eq_getElem?_getD, hj, hj']

theorem Table.get_modify_self (t : Table α n) (d : α) {i : Nat} (f : α → α) (h : i < n) :
    (t.modify i f).get d i = f (t.get d i) := by
  simp [Table.get_modify, h]

theorem Table.get_modify_of_ne (t : Table α n) (d : α) {i j : Nat} (f : α → α) (h : j ≠ i) :
    (t.modify i f).get d j = t.get d j := by
  rw [Table.get_modify, if_neg]
  rintro ⟨rfl, _⟩
  exact h rfl

theorem Table.get_mapIdx (t : Table α n) (d : α) (j : Nat) (f : Nat → α → α) :
    (t.mapIdx f).get d j = if j < n then f j (t.get d j) else t.get d j := by
  have hs := t.size
  by_cases hj : j < n
  · have hj' : j < t.rows.length := by omega
    simp [Table.get, Table.mapIdx, List.getD_eq_getElem?_getD, hj, hj']
  · have hj' : t.rows.length ≤ j := by omega
    simp [Table.get, Table.mapIdx, List.getD_eq_getElem?_getD, hj, hj']

theorem Table.get_of_le (t : Table α n) (d : α) {j : Nat} (h : n ≤ j) : t.get d j = d := by
  have hs := t.size
  have hj' : t.rows.length ≤ j := by omega
  simp [Table.get, List.getD_eq_getElem?_getD, hj']

@[simp] theorem Table.get_replicate (x d : α) (j : Nat) :
    (Table.replicate n x).get d j = if j < n then x else d := by
  by_cases hj : j < n
  · simp [Table.get, Table.replicate, List.getD_eq_getElem?_getD, hj]
  · have : n ≤ j := by omega
    simp [Table.get, Table.replicate, List.getD_eq_getElem?_getD, hj]

/-- Two tables that read alike everywhere are equal. -/
theorem Table.ext_get {t u : Table α n} (d : α) (h : ∀ j, j < n → t.get d j = u.get d j) : t = u := by
  obtain ⟨a, ha⟩ := t
  obtain ⟨b, hb⟩ := u
  have : a = b := by
    apply List.ext_getElem (by omega)
    intro j h1 h2
    have := h j (by omega)
    simpa [Table.get, List.getD_eq_getElem?_getD, h1, h2] using this
  subst this
  rfl

theorem Table.rows_modify (t : Table α n) (i : Nat) (f : α → α) : (t.modify i f).rows = t.rows.modify i f := rfl

/-- Two changes of one record are one change. -/
theorem Table.modify_modify (t : Table α n) (i : Nat) (f g : α → α) :
    (t.modify i f).modify i g = t.modify i (fun x => g (f x)) := by
  obtain ⟨a, ha⟩ := t
  simp only [Table.modify, List.modify_modify_eq]
  rfl

/-- A change that leaves the record as it is leaves the table as it is. -/
theorem Table.modify_eq_self (t : Table α n) (d : α) (i : Nat) (f : α → α) (h : i < n → f (t.get d i) = t.get d i) :
    t.modify i f = t := by
  apply Table.ext_get d
  intro j hj
  rw [Table.get_modify]
  split
  · rename_i e
    obtain ⟨rfl, _⟩ := e
    exact h hj
  · rfl

namespace Machine

@[simp] theorem updStation_cli (s : State) (i : Nat) (f : Station → Station) : (s.updStation i f).cli = s.cli := rfl
@[simp] theorem updStation_rli (s : State) (i : Nat) (f : Station → Station) : (s.updStation i f).rli = s.rli := rfl
@[simp] theorem updStation_fpl (s : State) (i : Nat) (f : Station → Station) : (s.updStation i f).fpl = s.fpl := rfl
@[simp] theorem updStation_rck (s : State) (i : Nat) (f : Station → Station) : (s.updStation i f).rck = s.rck := rfl
@[simp] theorem updStation_coh (s : State) (i : Nat) (f : Station → Station) : (s.updStation i f).coh = s.coh := rfl
@[simp] theorem updStation_sel (s : State) (i : Nat) (f : Station → Station) : (s.updStation i f).sel = s.sel := rfl
@[simp] theorem updStation_ord (s : State) (i : Nat) (f : Station → Station) : (s.updStation i f).ord = s.ord := rfl
@[simp] theorem updStation_mgd (s : State) (i : Nat) (f : Station → Station) : (s.updStation i f).mgd = s.mgd := rfl
@[simp] theorem updStation_mod (s : State) (i : Nat) (f : Station → Station) : (s.updStation i f).mod = s.mod := rfl
@[simp] theorem updStation_resetN (s : State) (i : Nat) (f : Station → Station) :
    (s.updStation i f).resetN = s.resetN := rfl
@[simp] theorem updStation_pending (s : State) (i : Nat) (f : Station → Station) :
    (s.updStation i f).pending = s.pending := rfl
@[simp] theorem updStation_linkNotes (s : State) (i : Nat) (f : Station → Station) :
    (s.updStation i f).stt.linkNotes = s.stt.linkNotes := rfl
@[simp] theorem updStation_radioIgnored (s : State) (i : Nat) (f : Station → Station) :
    (s.updStation i f).stt.radioIgnored = s.stt.radioIgnored := rfl
@[simp] theorem updStation_lanesOf (s : State) (i j : Nat) (f : Station → Station) :
    (s.updStation i f).lanesOf j = s.lanesOf j := rfl
@[simp] theorem updStation_lane (s : State) (i j : Nat) (l : Lane) (f : Station → Station) :
    (s.updStation i f).lane j l = s.lane j l := rfl
@[simp] theorem updStation_cohort (s : State) (i c : Nat) (f : Station → Station) :
    (s.updStation i f).cohort c = s.cohort c := rfl
@[simp] theorem updStation_outFree (s : State) (i : Nat) (f : Station → Station) :
    (s.updStation i f).outFree = s.outFree := rfl
@[simp] theorem updStation_radioFree (s : State) (i : Nat) (f : Station → Station) :
    (s.updStation i f).radioFree = s.radioFree := rfl

/-- A change of the link notes changes no station record. -/
@[simp] theorem updStt_linkNotes_station (s : State) (q : Stt → List LinkNote) (i : Nat) :
    (s.updStt fun t => { t with linkNotes := q t }).station i = s.station i := rfl

/-- A count of ignored radio events changes no station record. -/
@[simp] theorem updStt_radioIgnored_station (s : State) (q : Stt → Nat) (i : Nat) :
    (s.updStt fun t => { t with radioIgnored := q t }).station i = s.station i := rfl

theorem updStation_station (s : State) (i j : Nat) (f : Station → Station) :
    (s.updStation i f).station j = if i = j ∧ j < Config.stationCount then f (s.station j) else s.station j :=
  Table.get_modify ..

@[simp] theorem updStation_station_self (s : State) {i : Nat} (f : Station → Station) (h : i < 512) :
    (s.updStation i f).station i = f (s.station i) :=
  Table.get_modify_self _ _ _ h

theorem updStation_station_of_ne (s : State) {i j : Nat} (f : Station → Station) (h : j ≠ i) :
    (s.updStation i f).station j = s.station j :=
  Table.get_modify_of_ne _ _ _ h

/-- No station has an index above 511: such an index reads as a cleared record. -/
theorem station_of_le (s : State) {i : Nat} (h : 512 ≤ i) : s.station i = .cleared none :=
  Table.get_of_le _ _ h

@[simp] theorem updCohort_cli (s : State) (c : Nat) (f : Cohort → Cohort) : (s.updCohort c f).cli = s.cli := rfl
@[simp] theorem updCohort_rli (s : State) (c : Nat) (f : Cohort → Cohort) : (s.updCohort c f).rli = s.rli := rfl
@[simp] theorem updCohort_stt (s : State) (c : Nat) (f : Cohort → Cohort) : (s.updCohort c f).stt = s.stt := rfl
@[simp] theorem updCohort_fpl (s : State) (c : Nat) (f : Cohort → Cohort) : (s.updCohort c f).fpl = s.fpl := rfl
@[simp] theorem updCohort_rck (s : State) (c : Nat) (f : Cohort → Cohort) : (s.updCohort c f).rck = s.rck := rfl
@[simp] theorem updCohort_sel (s : State) (c : Nat) (f : Cohort → Cohort) : (s.updCohort c f).sel = s.sel := rfl
@[simp] theorem updCohort_ord (s : State) (c : Nat) (f : Cohort → Cohort) : (s.updCohort c f).ord = s.ord := rfl
@[simp] theorem updCohort_mgd (s : State) (c : Nat) (f : Cohort → Cohort) : (s.updCohort c f).mgd = s.mgd := rfl
@[simp] theorem updCohort_mod (s : State) (c : Nat) (f : Cohort → Cohort) : (s.updCohort c f).mod = s.mod := rfl
@[simp] theorem updCohort_resetN (s : State) (c : Nat) (f : Cohort → Cohort) : (s.updCohort c f).resetN = s.resetN := rfl
@[simp] theorem updCohort_pending (s : State) (c : Nat) (f : Cohort → Cohort) : (s.updCohort c f).pending = s.pending := rfl
@[simp] theorem updCohort_outFree (s : State) (c : Nat) (f : Cohort → Cohort) :
    (s.updCohort c f).outFree = s.outFree := rfl
@[simp] theorem updCohort_radioFree (s : State) (c : Nat) (f : Cohort → Cohort) :
    (s.updCohort c f).radioFree = s.radioFree := rfl
@[simp] theorem updCohort_station (s : State) (c i : Nat) (f : Cohort → Cohort) :
    (s.updCohort c f).station i = s.station i := rfl
@[simp] theorem updCohort_lanesOf (s : State) (c i : Nat) (f : Cohort → Cohort) :
    (s.updCohort c f).lanesOf i = s.lanesOf i := rfl
@[simp] theorem updCohort_lane (s : State) (c i : Nat) (l : Lane) (f : Cohort → Cohort) :
    (s.updCohort c f).lane i l = s.lane i l := rfl

theorem updCohort_cohort (s : State) (c j : Nat) (f : Cohort → Cohort) :
    (s.updCohort c f).cohort j = if c = j ∧ j < Config.cohortCount then f (s.cohort j) else s.cohort j :=
  Table.get_modify ..

@[simp] theorem updCohort_cohort_self (s : State) {c : Nat} (f : Cohort → Cohort) (h : c < 32) :
    (s.updCohort c f).cohort c = f (s.cohort c) :=
  Table.get_modify_self _ _ _ h

theorem updCohort_cohort_of_ne (s : State) {c j : Nat} (f : Cohort → Cohort) (h : j ≠ c) :
    (s.updCohort c f).cohort j = s.cohort j :=
  Table.get_modify_of_ne _ _ _ h

/-! ## Lanes -/

@[simp] theorem Lanes.get_set (ls : Lanes) (l k : Lane) (q : List Frame) :
    (ls.set l q).get k = if k = l then q else ls.get k := by
  cases l <;> cases k <;> rfl

@[simp] theorem Lanes.get_empty (l : Lane) : Lanes.empty.get l = [] := by
  cases l <;> rfl

/-- Lanes that read alike are equal. -/
theorem Lanes.ext_get {a b : Lanes} (h : ∀ l, a.get l = b.get l) : a = b := by
  obtain ⟨p, b', k⟩ := a
  have hp := h .prompt
  have hb := h .bulk
  have hk := h .slack
  simp only [Lanes.get] at hp hb hk
  simp [hp, hb, hk]

theorem Lanes.allEmpty_iff (ls : Lanes) : ls.allEmpty = true ↔ ∀ l, ls.get l = [] := by
  constructor
  · intro h l
    simp [Lanes.allEmpty] at h
    cases l <;> simp [Lanes.get, h]
  · intro h
    have hp := h .prompt
    have hb := h .bulk
    have hk := h .slack
    simp only [Lanes.get] at hp hb hk
    simp [Lanes.allEmpty, hp, hb, hk]

@[simp] theorem setLane_cli (s : State) (i : Nat) (l : Lane) (q : List Frame) : (s.setLane i l q).cli = s.cli := rfl
@[simp] theorem setLane_rli (s : State) (i : Nat) (l : Lane) (q : List Frame) : (s.setLane i l q).rli = s.rli := rfl
@[simp] theorem setLane_stt (s : State) (i : Nat) (l : Lane) (q : List Frame) : (s.setLane i l q).stt = s.stt := rfl
@[simp] theorem setLane_rck (s : State) (i : Nat) (l : Lane) (q : List Frame) : (s.setLane i l q).rck = s.rck := rfl
@[simp] theorem setLane_coh (s : State) (i : Nat) (l : Lane) (q : List Frame) : (s.setLane i l q).coh = s.coh := rfl
@[simp] theorem setLane_sel (s : State) (i : Nat) (l : Lane) (q : List Frame) : (s.setLane i l q).sel = s.sel := rfl
@[simp] theorem setLane_ord (s : State) (i : Nat) (l : Lane) (q : List Frame) : (s.setLane i l q).ord = s.ord := rfl
@[simp] theorem setLane_mgd (s : State) (i : Nat) (l : Lane) (q : List Frame) : (s.setLane i l q).mgd = s.mgd := rfl
@[simp] theorem setLane_mod (s : State) (i : Nat) (l : Lane) (q : List Frame) : (s.setLane i l q).mod = s.mod := rfl
@[simp] theorem setLane_resetN (s : State) (i : Nat) (l : Lane) (q : List Frame) :
    (s.setLane i l q).resetN = s.resetN := rfl
@[simp] theorem setLane_pending (s : State) (i : Nat) (l : Lane) (q : List Frame) :
    (s.setLane i l q).pending = s.pending := rfl
@[simp] theorem setLane_outFree (s : State) (i : Nat) (l : Lane) (q : List Frame) :
    (s.setLane i l q).outFree = s.outFree := rfl
@[simp] theorem setLane_radioFree (s : State) (i : Nat) (l : Lane) (q : List Frame) :
    (s.setLane i l q).radioFree = s.radioFree := rfl
@[simp] theorem setLane_station (s : State) (i j : Nat) (l : Lane) (q : List Frame) :
    (s.setLane i l q).station j = s.station j := rfl
@[simp] theorem setLane_cohort (s : State) (i c : Nat) (l : Lane) (q : List Frame) :
    (s.setLane i l q).cohort c = s.cohort c := rfl
@[simp] theorem setLane_returnList (s : State) (i : Nat) (l : Lane) (q : List Frame) :
    (s.setLane i l q).fpl.returnList = s.fpl.returnList := rfl
@[simp] theorem setLane_expiry (s : State) (i : Nat) (l : Lane) (q : List Frame) :
    (s.setLane i l q).fpl.expiry = s.fpl.expiry := rfl
@[simp] theorem setLane_freeEntries (s : State) (i : Nat) (l : Lane) (q : List Frame) :
    (s.setLane i l q).fpl.freeEntries = s.fpl.freeEntries := rfl

@[simp] theorem setLane_nextSequence (s : State) (i : Nat) (l : Lane) (q : List Frame) :
    (s.setLane i l q).fpl.nextSequence = s.fpl.nextSequence := rfl
@[simp] theorem setLane_framesAccepted (s : State) (i : Nat) (l : Lane) (q : List Frame) :
    (s.setLane i l q).fpl.framesAccepted = s.fpl.framesAccepted := rfl
@[simp] theorem setLane_framesRefused (s : State) (i : Nat) (l : Lane) (q : List Frame) :
    (s.setLane i l q).fpl.framesRefused = s.fpl.framesRefused := rfl
@[simp] theorem setLane_framesRequeued (s : State) (i : Nat) (l : Lane) (q : List Frame) :
    (s.setLane i l q).fpl.framesRequeued = s.fpl.framesRequeued := rfl
@[simp] theorem setLane_framesExpired (s : State) (i : Nat) (l : Lane) (q : List Frame) :
    (s.setLane i l q).fpl.framesExpired = s.fpl.framesExpired := rfl
@[simp] theorem setLane_tokenNotices (s : State) (i : Nat) (l : Lane) (q : List Frame) :
    (s.setLane i l q).fpl.tokenNotices = s.fpl.tokenNotices := rfl

theorem setLane_lanesOf (s : State) (i j : Nat) (l : Lane) (q : List Frame) :
    (s.setLane i l q).lanesOf j =
      if i = j ∧ j < Config.stationCount then (s.lanesOf j).set l q else s.lanesOf j :=
  Table.get_modify ..

theorem setLane_lane (s : State) (i j : Nat) (l k : Lane) (q : List Frame) :
    (s.setLane i l q).lane j k =
      if (j, k) = (i, l) ∧ j < Config.stationCount then q else s.lane j k := by
  unfold State.lane
  rw [setLane_lanesOf]
  by_cases h : i = j ∧ j < Config.stationCount
  · obtain ⟨rfl, h⟩ := h
    simp [h]
  · rw [if_neg h, if_neg]
    rintro ⟨e, h'⟩
    exact h ⟨(congrArg Prod.fst e).symm, h'⟩

/-- No lane belongs to an index above 511. -/
theorem lanesOf_of_le (s : State) {i : Nat} (h : 512 ≤ i) : s.lanesOf i = .empty :=
  Table.get_of_le _ _ h

/-- No lane belongs to an index above 511: such a lane reads as empty. -/
theorem lane_of_le (s : State) {i : Nat} (l : Lane) (h : 512 ≤ i) : s.lane i l = [] := by
  simp [State.lane, lanesOf_of_le s h]

/-- A lane that is not empty belongs to a station there is. -/
theorem lt_of_lane_ne_nil {s : State} {i : Nat} {l : Lane} (h : s.lane i l ≠ []) : i < 512 := by
  by_contra c
  exact h (lane_of_le s l (by omega))

/-- An update of FPL that keeps the lanes keeps what every lane holds. -/
theorem lanesOf_congr {s t : State} (h : t.fpl.lanes = s.fpl.lanes) (i : Nat) : t.lanesOf i = s.lanesOf i := by
  simp [State.lanesOf, h]

theorem lane_congr {s t : State} (h : t.fpl.lanes = s.fpl.lanes) (i : Nat) (l : Lane) : t.lane i l = s.lane i l := by
  simp [State.lane, lanesOf_congr h]

theorem station_congr {s t : State} (h : t.stt.stations = s.stt.stations) (i : Nat) : t.station i = s.station i := by
  simp [State.station, h]

theorem cohort_congr {s t : State} (h : t.coh = s.coh) (c : Nat) : t.cohort c = s.cohort c := by
  simp [State.cohort, h]

end Machine

end Sys2Proof
end

