-- ==== Sys2Proof/Laws/Keeps.lean ====
section
/-!
SUPPORT. What each shared operation leaves as it is, one lemma an operation, for the simplifier: no later proof unfolds
an operation to see that it keeps another block's state.
-/

set_option linter.unusedTactic false
set_option linter.unreachableTactic false

namespace Sys2Proof.Machine

/-! ## Flags, lists -/

@[simp] theorem setGroupDue_keeps (s : State) (v : Bool) :
    (s.setGroupDue v).cli = s.cli ∧ (s.setGroupDue v).rli = s.rli ∧ (s.setGroupDue v).stt = s.stt
      ∧ (s.setGroupDue v).fpl = s.fpl ∧ (s.setGroupDue v).rck = s.rck ∧ (s.setGroupDue v).coh = s.coh
      ∧ (s.setGroupDue v).sel.active = s.sel.active ∧ (s.setGroupDue v).sel.prompt = s.sel.prompt
      ∧ (s.setGroupDue v).sel.poll = s.sel.poll ∧ (s.setGroupDue v).sel.groupBudget = s.sel.groupBudget
      ∧ (s.setGroupDue v).sel.promptBudget = s.sel.promptBudget ∧ (s.setGroupDue v).sel.groupAllot = s.sel.groupAllot
      ∧ (s.setGroupDue v).sel.promptAllot = s.sel.promptAllot ∧ (s.setGroupDue v).sel.choice = s.sel.choice
      ∧ (s.setGroupDue v).ord = s.ord ∧ (s.setGroupDue v).mgd = s.mgd ∧ (s.setGroupDue v).mod = s.mod
      ∧ (s.setGroupDue v).resetN = s.resetN ∧ (s.setGroupDue v).pending = s.pending
      ∧ (∀ j, (s.setGroupDue v).station j = s.station j) ∧ (∀ j, (s.setGroupDue v).lanesOf j = s.lanesOf j)
      ∧ (∀ j m, (s.setGroupDue v).lane j m = s.lane j m) ∧ (∀ k, (s.setGroupDue v).cohort k = s.cohort k)
      ∧ (s.setGroupDue v).radioFree = s.radioFree ∧ (s.setGroupDue v).outFree = s.outFree := by
  unfold State.setGroupDue
  and_intros <;> intros <;> (try dsimp only) <;> (repeat' split)
    <;> first | (simp; done) | simp [State.station, State.lane, State.lanesOf, State.radioFree, State.outFree]

@[simp] theorem setGroupBudget_keeps (s : State) (b : Int) :
    (s.setGroupBudget b).cli = s.cli ∧ (s.setGroupBudget b).rli = s.rli ∧ (s.setGroupBudget b).stt = s.stt
      ∧ (s.setGroupBudget b).fpl = s.fpl ∧ (s.setGroupBudget b).rck = s.rck ∧ (s.setGroupBudget b).coh = s.coh
      ∧ (s.setGroupBudget b).sel.active = s.sel.active ∧ (s.setGroupBudget b).sel.prompt = s.sel.prompt
      ∧ (s.setGroupBudget b).sel.poll = s.sel.poll ∧ (s.setGroupBudget b).sel.promptBudget = s.sel.promptBudget
      ∧ (s.setGroupBudget b).sel.groupAllot = s.sel.groupAllot
      ∧ (s.setGroupBudget b).sel.promptAllot = s.sel.promptAllot ∧ (s.setGroupBudget b).sel.choice = s.sel.choice
      ∧ (s.setGroupBudget b).ord = s.ord ∧ (s.setGroupBudget b).mgd = s.mgd ∧ (s.setGroupBudget b).mod = s.mod
      ∧ (s.setGroupBudget b).resetN = s.resetN ∧ (s.setGroupBudget b).pending = s.pending
      ∧ (∀ j, (s.setGroupBudget b).station j = s.station j) ∧ (∀ j, (s.setGroupBudget b).lanesOf j = s.lanesOf j)
      ∧ (∀ j m, (s.setGroupBudget b).lane j m = s.lane j m) ∧ (∀ k, (s.setGroupBudget b).cohort k = s.cohort k)
      ∧ (s.setGroupBudget b).radioFree = s.radioFree ∧ (s.setGroupBudget b).outFree = s.outFree := by
  unfold State.setGroupBudget
  and_intros <;> intros <;> (try dsimp only) <;> (repeat' split)
    <;> first | (simp; done) | simp [State.station, State.lane, State.lanesOf, State.radioFree, State.outFree]

@[simp] theorem setPendingAlert_keeps (s : State) :
    (s.setPendingAlert).cli = s.cli ∧ (s.setPendingAlert).rli = s.rli ∧ (s.setPendingAlert).stt = s.stt
      ∧ (s.setPendingAlert).fpl = s.fpl ∧ (s.setPendingAlert).rck = s.rck ∧ (s.setPendingAlert).coh = s.coh
      ∧ (s.setPendingAlert).sel = s.sel ∧ (s.setPendingAlert).ord = s.ord ∧ (s.setPendingAlert).mgd = s.mgd
      ∧ (s.setPendingAlert).mod.mode = s.mod.mode ∧ (s.setPendingAlert).mod.causes = s.mod.causes
      ∧ (s.setPendingAlert).mod.config = s.mod.config ∧ (s.setPendingAlert).mod.configValid = s.mod.configValid
      ∧ (s.setPendingAlert).mod.alertsSent = s.mod.alertsSent ∧ (s.setPendingAlert).resetN = s.resetN
      ∧ (s.setPendingAlert).pending = s.pending ∧ (∀ j, (s.setPendingAlert).station j = s.station j)
      ∧ (∀ j, (s.setPendingAlert).lanesOf j = s.lanesOf j) ∧ (∀ j m, (s.setPendingAlert).lane j m = s.lane j m)
      ∧ (∀ k, (s.setPendingAlert).cohort k = s.cohort k) ∧ (s.setPendingAlert).radioFree = s.radioFree
      ∧ (s.setPendingAlert).outFree = s.outFree := by
  unfold State.setPendingAlert
  and_intros <;> intros <;> (try dsimp only) <;> (repeat' split)
    <;> first | (simp; done) | simp [State.station, State.lane, State.lanesOf, State.radioFree, State.outFree]

@[simp] theorem setMode_keeps (s : State) (x : Mode) :
    (s.setMode x).cli = s.cli ∧ (s.setMode x).rli = s.rli ∧ (s.setMode x).stt = s.stt ∧ (s.setMode x).fpl = s.fpl
      ∧ (s.setMode x).rck = s.rck ∧ (s.setMode x).coh = s.coh ∧ (s.setMode x).sel = s.sel ∧ (s.setMode x).ord = s.ord
      ∧ (s.setMode x).mgd = s.mgd ∧ (s.setMode x).mod.causes = s.mod.causes ∧ (s.setMode x).mod.config = s.mod.config
      ∧ (s.setMode x).mod.configValid = s.mod.configValid ∧ (s.setMode x).mod.alertsSent = s.mod.alertsSent
      ∧ (s.setMode x).resetN = s.resetN ∧ (s.setMode x).pending = s.pending
      ∧ (∀ j, (s.setMode x).station j = s.station j) ∧ (∀ j, (s.setMode x).lanesOf j = s.lanesOf j)
      ∧ (∀ j m, (s.setMode x).lane j m = s.lane j m) ∧ (∀ k, (s.setMode x).cohort k = s.cohort k)
      ∧ (s.setMode x).radioFree = s.radioFree ∧ (s.setMode x).outFree = s.outFree := by
  unfold State.setMode
  and_intros <;> intros <;> (try dsimp only) <;> (repeat' split)
    <;> first | (simp; done) | simp [State.station, State.lane, State.lanesOf, State.radioFree, State.outFree]

@[simp] theorem reformAttn_keeps (s : State) (b : Option AttnMode) :
    (s.reformAttn b).rli = s.rli ∧ (s.reformAttn b).stt = s.stt ∧ (s.reformAttn b).fpl = s.fpl
      ∧ (s.reformAttn b).rck = s.rck ∧ (s.reformAttn b).coh = s.coh ∧ (s.reformAttn b).sel = s.sel
      ∧ (s.reformAttn b).ord = s.ord ∧ (s.reformAttn b).mgd = s.mgd ∧ (s.reformAttn b).mod = s.mod
      ∧ (s.reformAttn b).resetN = s.resetN ∧ (s.reformAttn b).pending = s.pending
      ∧ (∀ j, (s.reformAttn b).station j = s.station j) ∧ (∀ j, (s.reformAttn b).lanesOf j = s.lanesOf j)
      ∧ (∀ j m, (s.reformAttn b).lane j m = s.lane j m) ∧ (∀ k, (s.reformAttn b).cohort k = s.cohort k)
      ∧ (s.reformAttn b).radioFree = s.radioFree := by
  unfold State.reformAttn
  and_intros <;> intros <;> (try dsimp only) <;> (repeat' split)
    <;> first | (simp; done) | simp [State.station, State.lane, State.lanesOf, State.radioFree, State.outFree]

@[simp] theorem placeActive_keeps (s : State) (i : Nat) :
    (s.placeActive i).cli = s.cli ∧ (s.placeActive i).rli = s.rli ∧ (s.placeActive i).stt = s.stt
      ∧ (s.placeActive i).fpl = s.fpl ∧ (s.placeActive i).rck = s.rck ∧ (s.placeActive i).coh = s.coh
      ∧ (s.placeActive i).sel.prompt = s.sel.prompt ∧ (s.placeActive i).sel.poll = s.sel.poll
      ∧ (s.placeActive i).sel.groupDue = s.sel.groupDue ∧ (s.placeActive i).sel.groupBudget = s.sel.groupBudget
      ∧ (s.placeActive i).sel.promptBudget = s.sel.promptBudget ∧ (s.placeActive i).sel.groupAllot = s.sel.groupAllot
      ∧ (s.placeActive i).sel.promptAllot = s.sel.promptAllot ∧ (s.placeActive i).sel.choice = s.sel.choice
      ∧ (s.placeActive i).ord = s.ord ∧ (s.placeActive i).mgd = s.mgd ∧ (s.placeActive i).mod = s.mod
      ∧ (s.placeActive i).resetN = s.resetN ∧ (s.placeActive i).pending = s.pending
      ∧ (∀ j, (s.placeActive i).station j = s.station j) ∧ (∀ j, (s.placeActive i).lanesOf j = s.lanesOf j)
      ∧ (∀ j m, (s.placeActive i).lane j m = s.lane j m) ∧ (∀ k, (s.placeActive i).cohort k = s.cohort k)
      ∧ (s.placeActive i).radioFree = s.radioFree ∧ (s.placeActive i).outFree = s.outFree := by
  unfold State.placeActive
  and_intros <;> intros <;> (try dsimp only) <;> (repeat' split)
    <;> first | (simp; done) | simp [State.station, State.lane, State.lanesOf, State.radioFree, State.outFree]

@[simp] theorem removeActive_keeps (s : State) (i : Nat) :
    (s.removeActive i).cli = s.cli ∧ (s.removeActive i).rli = s.rli ∧ (s.removeActive i).stt = s.stt
      ∧ (s.removeActive i).fpl = s.fpl ∧ (s.removeActive i).rck = s.rck ∧ (s.removeActive i).coh = s.coh
      ∧ (s.removeActive i).sel.prompt = s.sel.prompt ∧ (s.removeActive i).sel.poll = s.sel.poll
      ∧ (s.removeActive i).sel.groupDue = s.sel.groupDue ∧ (s.removeActive i).sel.groupBudget = s.sel.groupBudget
      ∧ (s.removeActive i).sel.promptBudget = s.sel.promptBudget
      ∧ (s.removeActive i).sel.groupAllot = s.sel.groupAllot ∧ (s.removeActive i).sel.promptAllot = s.sel.promptAllot
      ∧ (s.removeActive i).sel.choice = s.sel.choice ∧ (s.removeActive i).ord = s.ord ∧ (s.removeActive i).mgd = s.mgd
      ∧ (s.removeActive i).mod = s.mod ∧ (s.removeActive i).resetN = s.resetN ∧ (s.removeActive i).pending = s.pending
      ∧ (∀ j, (s.removeActive i).station j = s.station j) ∧ (∀ j, (s.removeActive i).lanesOf j = s.lanesOf j)
      ∧ (∀ j m, (s.removeActive i).lane j m = s.lane j m) ∧ (∀ k, (s.removeActive i).cohort k = s.cohort k)
      ∧ (s.removeActive i).radioFree = s.radioFree ∧ (s.removeActive i).outFree = s.outFree := by
  unfold State.removeActive
  and_intros <;> intros <;> (try dsimp only) <;> (repeat' split)
    <;> first | (simp; done) | simp [State.station, State.lane, State.lanesOf, State.radioFree, State.outFree]

@[simp] theorem placePrompt_keeps (s : State) (i : Nat) :
    (s.placePrompt i).cli = s.cli ∧ (s.placePrompt i).rli = s.rli ∧ (s.placePrompt i).stt = s.stt
      ∧ (s.placePrompt i).fpl = s.fpl ∧ (s.placePrompt i).rck = s.rck ∧ (s.placePrompt i).coh = s.coh
      ∧ (s.placePrompt i).sel.active = s.sel.active ∧ (s.placePrompt i).sel.poll = s.sel.poll
      ∧ (s.placePrompt i).sel.groupDue = s.sel.groupDue ∧ (s.placePrompt i).sel.groupBudget = s.sel.groupBudget
      ∧ (s.placePrompt i).sel.promptBudget = s.sel.promptBudget ∧ (s.placePrompt i).sel.groupAllot = s.sel.groupAllot
      ∧ (s.placePrompt i).sel.promptAllot = s.sel.promptAllot ∧ (s.placePrompt i).sel.choice = s.sel.choice
      ∧ (s.placePrompt i).ord = s.ord ∧ (s.placePrompt i).mgd = s.mgd ∧ (s.placePrompt i).mod = s.mod
      ∧ (s.placePrompt i).resetN = s.resetN ∧ (s.placePrompt i).pending = s.pending
      ∧ (∀ j, (s.placePrompt i).station j = s.station j) ∧ (∀ j, (s.placePrompt i).lanesOf j = s.lanesOf j)
      ∧ (∀ j m, (s.placePrompt i).lane j m = s.lane j m) ∧ (∀ k, (s.placePrompt i).cohort k = s.cohort k)
      ∧ (s.placePrompt i).radioFree = s.radioFree ∧ (s.placePrompt i).outFree = s.outFree := by
  unfold State.placePrompt
  and_intros <;> intros <;> (try dsimp only) <;> (repeat' split)
    <;> first | (simp; done) | simp [State.station, State.lane, State.lanesOf, State.radioFree, State.outFree]

@[simp] theorem removePrompt_keeps (s : State) (i : Nat) :
    (s.removePrompt i).cli = s.cli ∧ (s.removePrompt i).rli = s.rli ∧ (s.removePrompt i).stt = s.stt
      ∧ (s.removePrompt i).fpl = s.fpl ∧ (s.removePrompt i).rck = s.rck ∧ (s.removePrompt i).coh = s.coh
      ∧ (s.removePrompt i).sel.active = s.sel.active ∧ (s.removePrompt i).sel.poll = s.sel.poll
      ∧ (s.removePrompt i).sel.groupDue = s.sel.groupDue ∧ (s.removePrompt i).sel.groupBudget = s.sel.groupBudget
      ∧ (s.removePrompt i).sel.promptBudget = s.sel.promptBudget
      ∧ (s.removePrompt i).sel.groupAllot = s.sel.groupAllot ∧ (s.removePrompt i).sel.promptAllot = s.sel.promptAllot
      ∧ (s.removePrompt i).sel.choice = s.sel.choice ∧ (s.removePrompt i).ord = s.ord ∧ (s.removePrompt i).mgd = s.mgd
      ∧ (s.removePrompt i).mod = s.mod ∧ (s.removePrompt i).resetN = s.resetN ∧ (s.removePrompt i).pending = s.pending
      ∧ (∀ j, (s.removePrompt i).station j = s.station j) ∧ (∀ j, (s.removePrompt i).lanesOf j = s.lanesOf j)
      ∧ (∀ j m, (s.removePrompt i).lane j m = s.lane j m) ∧ (∀ k, (s.removePrompt i).cohort k = s.cohort k)
      ∧ (s.removePrompt i).radioFree = s.radioFree ∧ (s.removePrompt i).outFree = s.outFree := by
  unfold State.removePrompt
  and_intros <;> intros <;> (try dsimp only) <;> (repeat' split)
    <;> first | (simp; done) | simp [State.station, State.lane, State.lanesOf, State.radioFree, State.outFree]

@[simp] theorem placePoll_keeps (s : State) (i : Nat) :
    (s.placePoll i).cli = s.cli ∧ (s.placePoll i).rli = s.rli ∧ (s.placePoll i).stt = s.stt
      ∧ (s.placePoll i).fpl = s.fpl ∧ (s.placePoll i).rck = s.rck ∧ (s.placePoll i).coh = s.coh
      ∧ (s.placePoll i).sel.active = s.sel.active ∧ (s.placePoll i).sel.prompt = s.sel.prompt
      ∧ (s.placePoll i).sel.groupDue = s.sel.groupDue ∧ (s.placePoll i).sel.groupBudget = s.sel.groupBudget
      ∧ (s.placePoll i).sel.promptBudget = s.sel.promptBudget ∧ (s.placePoll i).sel.groupAllot = s.sel.groupAllot
      ∧ (s.placePoll i).sel.promptAllot = s.sel.promptAllot ∧ (s.placePoll i).sel.choice = s.sel.choice
      ∧ (s.placePoll i).ord = s.ord ∧ (s.placePoll i).mgd = s.mgd ∧ (s.placePoll i).mod = s.mod
      ∧ (s.placePoll i).resetN = s.resetN ∧ (s.placePoll i).pending = s.pending
      ∧ (∀ j, (s.placePoll i).station j = s.station j) ∧ (∀ j, (s.placePoll i).lanesOf j = s.lanesOf j)
      ∧ (∀ j m, (s.placePoll i).lane j m = s.lane j m) ∧ (∀ k, (s.placePoll i).cohort k = s.cohort k)
      ∧ (s.placePoll i).radioFree = s.radioFree ∧ (s.placePoll i).outFree = s.outFree := by
  unfold State.placePoll
  and_intros <;> intros <;> (try dsimp only) <;> (repeat' split)
    <;> first | (simp; done) | simp [State.station, State.lane, State.lanesOf, State.radioFree, State.outFree]

@[simp] theorem removePoll_keeps (s : State) (i : Nat) :
    (s.removePoll i).cli = s.cli ∧ (s.removePoll i).rli = s.rli ∧ (s.removePoll i).stt = s.stt
      ∧ (s.removePoll i).fpl = s.fpl ∧ (s.removePoll i).rck = s.rck ∧ (s.removePoll i).coh = s.coh
      ∧ (s.removePoll i).sel.active = s.sel.active ∧ (s.removePoll i).sel.prompt = s.sel.prompt
      ∧ (s.removePoll i).sel.groupDue = s.sel.groupDue ∧ (s.removePoll i).sel.groupBudget = s.sel.groupBudget
      ∧ (s.removePoll i).sel.promptBudget = s.sel.promptBudget ∧ (s.removePoll i).sel.groupAllot = s.sel.groupAllot
      ∧ (s.removePoll i).sel.promptAllot = s.sel.promptAllot ∧ (s.removePoll i).sel.choice = s.sel.choice
      ∧ (s.removePoll i).ord = s.ord ∧ (s.removePoll i).mgd = s.mgd ∧ (s.removePoll i).mod = s.mod
      ∧ (s.removePoll i).resetN = s.resetN ∧ (s.removePoll i).pending = s.pending
      ∧ (∀ j, (s.removePoll i).station j = s.station j) ∧ (∀ j, (s.removePoll i).lanesOf j = s.lanesOf j)
      ∧ (∀ j m, (s.removePoll i).lane j m = s.lane j m) ∧ (∀ k, (s.removePoll i).cohort k = s.cohort k)
      ∧ (s.removePoll i).radioFree = s.radioFree ∧ (s.removePoll i).outFree = s.outFree := by
  unfold State.removePoll
  and_intros <;> intros <;> (try dsimp only) <;> (repeat' split)
    <;> first | (simp; done) | simp [State.station, State.lane, State.lanesOf, State.radioFree, State.outFree]

@[simp] theorem removeFromLists_keeps (s : State) (i : Nat) :
    (s.removeFromLists i).cli = s.cli ∧ (s.removeFromLists i).rli = s.rli ∧ (s.removeFromLists i).stt = s.stt
      ∧ (s.removeFromLists i).fpl = s.fpl ∧ (s.removeFromLists i).rck = s.rck ∧ (s.removeFromLists i).coh = s.coh
      ∧ (s.removeFromLists i).sel.groupDue = s.sel.groupDue
      ∧ (s.removeFromLists i).sel.groupBudget = s.sel.groupBudget
      ∧ (s.removeFromLists i).sel.promptBudget = s.sel.promptBudget
      ∧ (s.removeFromLists i).sel.groupAllot = s.sel.groupAllot
      ∧ (s.removeFromLists i).sel.promptAllot = s.sel.promptAllot ∧ (s.removeFromLists i).sel.choice = s.sel.choice
      ∧ (s.removeFromLists i).ord = s.ord ∧ (s.removeFromLists i).mgd = s.mgd ∧ (s.removeFromLists i).mod = s.mod
      ∧ (s.removeFromLists i).resetN = s.resetN ∧ (s.removeFromLists i).pending = s.pending
      ∧ (∀ j, (s.removeFromLists i).station j = s.station j) ∧ (∀ j, (s.removeFromLists i).lanesOf j = s.lanesOf j)
      ∧ (∀ j m, (s.removeFromLists i).lane j m = s.lane j m) ∧ (∀ k, (s.removeFromLists i).cohort k = s.cohort k)
      ∧ (s.removeFromLists i).radioFree = s.radioFree ∧ (s.removeFromLists i).outFree = s.outFree := by
  unfold State.removeFromLists
  and_intros <;> intros <;> (try dsimp only) <;> (repeat' split)
    <;> first | (simp; done) | simp [State.station, State.lane, State.lanesOf, State.radioFree, State.outFree]

/-! ## The radio arbiter and the control outbound queue -/

@[simp] theorem pushOut_keeps (s : State) (r : OutRecord) :
    (s.pushOut r).rli = s.rli ∧ (s.pushOut r).stt = s.stt ∧ (s.pushOut r).fpl = s.fpl ∧ (s.pushOut r).rck = s.rck
      ∧ (s.pushOut r).coh = s.coh ∧ (s.pushOut r).sel = s.sel ∧ (s.pushOut r).ord = s.ord ∧ (s.pushOut r).mgd = s.mgd
      ∧ (s.pushOut r).mod = s.mod ∧ (s.pushOut r).resetN = s.resetN ∧ (s.pushOut r).pending = s.pending
      ∧ (∀ j, (s.pushOut r).station j = s.station j) ∧ (∀ j, (s.pushOut r).lanesOf j = s.lanesOf j)
      ∧ (∀ j m, (s.pushOut r).lane j m = s.lane j m) ∧ (∀ k, (s.pushOut r).cohort k = s.cohort k)
      ∧ (s.pushOut r).radioFree = s.radioFree := by
  unfold State.pushOut
  and_intros <;> intros <;> (try dsimp only) <;> (repeat' split)
    <;> first | (simp; done) | simp [State.station, State.lane, State.lanesOf, State.radioFree, State.outFree]

@[simp] theorem giveCancel_keeps (s : State) :
    (s.giveCancel).cli = s.cli ∧ (s.giveCancel).rli.inbound = s.rli.inbound
      ∧ (s.giveCancel).rli.arrival = s.rli.arrival ∧ (s.giveCancel).rli.sending = s.rli.sending
      ∧ (s.giveCancel).rli.rlTx = s.rli.rlTx ∧ (s.giveCancel).rli.rlMalformed = s.rli.rlMalformed
      ∧ (s.giveCancel).rli.rlOverrun = s.rli.rlOverrun ∧ (s.giveCancel).stt = s.stt ∧ (s.giveCancel).fpl = s.fpl
      ∧ (s.giveCancel).rck = s.rck ∧ (s.giveCancel).coh = s.coh ∧ (s.giveCancel).sel = s.sel
      ∧ (s.giveCancel).ord.outstanding = s.ord.outstanding ∧ (s.giveCancel).ord.quarantine = s.ord.quarantine
      ∧ (s.giveCancel).ord.nextId = s.ord.nextId ∧ (s.giveCancel).ord.lossCount = s.ord.lossCount
      ∧ (s.giveCancel).ord.counters = s.ord.counters ∧ (s.giveCancel).mgd = s.mgd ∧ (s.giveCancel).mod = s.mod
      ∧ (s.giveCancel).resetN = s.resetN ∧ (s.giveCancel).pending = s.pending
      ∧ (∀ j, (s.giveCancel).station j = s.station j) ∧ (∀ j, (s.giveCancel).lanesOf j = s.lanesOf j)
      ∧ (∀ j m, (s.giveCancel).lane j m = s.lane j m) ∧ (∀ k, (s.giveCancel).cohort k = s.cohort k)
      ∧ (s.giveCancel).outFree = s.outFree := by
  unfold State.giveCancel
  and_intros <;> intros <;> (try dsimp only) <;> (repeat' split)
    <;> first | (simp; done) | simp [State.station, State.lane, State.lanesOf, State.radioFree, State.outFree]

@[simp] theorem giveNotes_keeps (s : State) (n : Nat) :
    (s.giveNotes n).cli = s.cli ∧ (s.giveNotes n).rli.inbound = s.rli.inbound
      ∧ (s.giveNotes n).rli.arrival = s.rli.arrival ∧ (s.giveNotes n).rli.sending = s.rli.sending
      ∧ (s.giveNotes n).rli.rlTx = s.rli.rlTx ∧ (s.giveNotes n).rli.rlMalformed = s.rli.rlMalformed
      ∧ (s.giveNotes n).rli.rlOverrun = s.rli.rlOverrun ∧ (s.giveNotes n).stt.radioIgnored = s.stt.radioIgnored
      ∧ (s.giveNotes n).fpl = s.fpl ∧ (s.giveNotes n).rck = s.rck ∧ (s.giveNotes n).coh = s.coh
      ∧ (s.giveNotes n).sel = s.sel ∧ (s.giveNotes n).ord = s.ord ∧ (s.giveNotes n).mgd = s.mgd
      ∧ (s.giveNotes n).mod = s.mod ∧ (s.giveNotes n).resetN = s.resetN ∧ (s.giveNotes n).pending = s.pending
      ∧ (∀ j, (s.giveNotes n).station j = s.station j) ∧ (∀ j, (s.giveNotes n).lanesOf j = s.lanesOf j)
      ∧ (∀ j m, (s.giveNotes n).lane j m = s.lane j m) ∧ (∀ k, (s.giveNotes n).cohort k = s.cohort k)
      ∧ (s.giveNotes n).outFree = s.outFree := by
  unfold State.giveNotes
  and_intros <;> intros <;> (try dsimp only) <;> (repeat' split)
    <;> first | (simp; done) | simp [State.station, State.lane, State.lanesOf, State.radioFree, State.outFree]

@[simp] theorem giveOrders_keeps (s : State) (n : Nat) :
    (s.giveOrders n).cli = s.cli ∧ (s.giveOrders n).rli.inbound = s.rli.inbound
      ∧ (s.giveOrders n).rli.arrival = s.rli.arrival ∧ (s.giveOrders n).rli.sending = s.rli.sending
      ∧ (s.giveOrders n).rli.rlTx = s.rli.rlTx ∧ (s.giveOrders n).rli.rlMalformed = s.rli.rlMalformed
      ∧ (s.giveOrders n).rli.rlOverrun = s.rli.rlOverrun ∧ (s.giveOrders n).stt = s.stt ∧ (s.giveOrders n).fpl = s.fpl
      ∧ (s.giveOrders n).rck = s.rck ∧ (s.giveOrders n).coh = s.coh ∧ (s.giveOrders n).sel = s.sel
      ∧ (s.giveOrders n).ord.quarantine = s.ord.quarantine ∧ (s.giveOrders n).ord.nextId = s.ord.nextId
      ∧ (s.giveOrders n).ord.lossCount = s.ord.lossCount ∧ (s.giveOrders n).ord.cancelPending = s.ord.cancelPending
      ∧ (s.giveOrders n).ord.counters = s.ord.counters ∧ (s.giveOrders n).mgd = s.mgd ∧ (s.giveOrders n).mod = s.mod
      ∧ (s.giveOrders n).resetN = s.resetN ∧ (s.giveOrders n).pending = s.pending
      ∧ (∀ j, (s.giveOrders n).station j = s.station j) ∧ (∀ j, (s.giveOrders n).lanesOf j = s.lanesOf j)
      ∧ (∀ j m, (s.giveOrders n).lane j m = s.lane j m) ∧ (∀ k, (s.giveOrders n).cohort k = s.cohort k)
      ∧ (s.giveOrders n).outFree = s.outFree := by
  unfold State.giveOrders
  and_intros <;> intros <;> (try dsimp only) <;> (repeat' split)
    <;> first | (simp; done) | simp [State.station, State.lane, State.lanesOf, State.radioFree, State.outFree]

@[simp] theorem serveNotes_keeps (s : State) :
    (s.serveNotes).cli = s.cli ∧ (s.serveNotes).rli.inbound = s.rli.inbound
      ∧ (s.serveNotes).rli.arrival = s.rli.arrival ∧ (s.serveNotes).rli.sending = s.rli.sending
      ∧ (s.serveNotes).rli.rlTx = s.rli.rlTx ∧ (s.serveNotes).rli.rlMalformed = s.rli.rlMalformed
      ∧ (s.serveNotes).rli.rlOverrun = s.rli.rlOverrun ∧ (s.serveNotes).stt.radioIgnored = s.stt.radioIgnored
      ∧ (s.serveNotes).fpl = s.fpl ∧ (s.serveNotes).rck = s.rck ∧ (s.serveNotes).coh = s.coh
      ∧ (s.serveNotes).sel = s.sel ∧ (s.serveNotes).ord.outstanding = s.ord.outstanding
      ∧ (s.serveNotes).ord.quarantine = s.ord.quarantine ∧ (s.serveNotes).ord.nextId = s.ord.nextId
      ∧ (s.serveNotes).ord.lossCount = s.ord.lossCount ∧ (s.serveNotes).ord.counters = s.ord.counters
      ∧ (s.serveNotes).mgd = s.mgd ∧ (s.serveNotes).mod = s.mod ∧ (s.serveNotes).resetN = s.resetN
      ∧ (s.serveNotes).pending = s.pending ∧ (∀ j, (s.serveNotes).station j = s.station j)
      ∧ (∀ j, (s.serveNotes).lanesOf j = s.lanesOf j) ∧ (∀ j m, (s.serveNotes).lane j m = s.lane j m)
      ∧ (∀ k, (s.serveNotes).cohort k = s.cohort k) ∧ (s.serveNotes).outFree = s.outFree := by
  unfold State.serveNotes
  and_intros <;> intros <;> (try dsimp only) <;> (repeat' split)
    <;> first | (simp; done) | simp [State.station, State.lane, State.lanesOf, State.radioFree, State.outFree]

@[simp] theorem serveOrders_keeps (s : State) :
    (s.serveOrders).cli = s.cli ∧ (s.serveOrders).rli.inbound = s.rli.inbound
      ∧ (s.serveOrders).rli.arrival = s.rli.arrival ∧ (s.serveOrders).rli.sending = s.rli.sending
      ∧ (s.serveOrders).rli.rlTx = s.rli.rlTx ∧ (s.serveOrders).rli.rlMalformed = s.rli.rlMalformed
      ∧ (s.serveOrders).rli.rlOverrun = s.rli.rlOverrun ∧ (s.serveOrders).stt.radioIgnored = s.stt.radioIgnored
      ∧ (s.serveOrders).fpl = s.fpl ∧ (s.serveOrders).rck = s.rck ∧ (s.serveOrders).coh = s.coh
      ∧ (s.serveOrders).sel = s.sel ∧ (s.serveOrders).ord.quarantine = s.ord.quarantine
      ∧ (s.serveOrders).ord.nextId = s.ord.nextId ∧ (s.serveOrders).ord.lossCount = s.ord.lossCount
      ∧ (s.serveOrders).ord.counters = s.ord.counters ∧ (s.serveOrders).mgd = s.mgd ∧ (s.serveOrders).mod = s.mod
      ∧ (s.serveOrders).resetN = s.resetN ∧ (s.serveOrders).pending = s.pending
      ∧ (∀ j, (s.serveOrders).station j = s.station j) ∧ (∀ j, (s.serveOrders).lanesOf j = s.lanesOf j)
      ∧ (∀ j m, (s.serveOrders).lane j m = s.lane j m) ∧ (∀ k, (s.serveOrders).cohort k = s.cohort k)
      ∧ (s.serveOrders).outFree = s.outFree := by
  unfold State.serveOrders
  and_intros <;> intros <;> (try dsimp only) <;> (repeat' split)
    <;> first | (simp; done) | simp [State.station, State.lane, State.lanesOf, State.radioFree, State.outFree]

@[simp] theorem formNote_keeps (s : State) (n : LinkNote) :
    (s.formNote n).cli = s.cli ∧ (s.formNote n).rli.inbound = s.rli.inbound
      ∧ (s.formNote n).rli.arrival = s.rli.arrival ∧ (s.formNote n).rli.sending = s.rli.sending
      ∧ (s.formNote n).rli.rlTx = s.rli.rlTx ∧ (s.formNote n).rli.rlMalformed = s.rli.rlMalformed
      ∧ (s.formNote n).rli.rlOverrun = s.rli.rlOverrun ∧ (s.formNote n).stt.radioIgnored = s.stt.radioIgnored
      ∧ (s.formNote n).fpl = s.fpl ∧ (s.formNote n).rck = s.rck ∧ (s.formNote n).coh = s.coh
      ∧ (s.formNote n).sel = s.sel ∧ (s.formNote n).ord.outstanding = s.ord.outstanding
      ∧ (s.formNote n).ord.quarantine = s.ord.quarantine ∧ (s.formNote n).ord.nextId = s.ord.nextId
      ∧ (s.formNote n).ord.lossCount = s.ord.lossCount ∧ (s.formNote n).ord.counters = s.ord.counters
      ∧ (s.formNote n).mgd = s.mgd ∧ (s.formNote n).mod = s.mod ∧ (s.formNote n).resetN = s.resetN
      ∧ (s.formNote n).pending = s.pending ∧ (∀ j, (s.formNote n).station j = s.station j)
      ∧ (∀ j, (s.formNote n).lanesOf j = s.lanesOf j) ∧ (∀ j m, (s.formNote n).lane j m = s.lane j m)
      ∧ (∀ k, (s.formNote n).cohort k = s.cohort k) ∧ (s.formNote n).outFree = s.outFree := by
  unfold State.formNote
  simp

@[simp] theorem formPollEmpty_keeps (s : State) (i : Nat) :
    (s.formPollEmpty i).cli = s.cli ∧ (s.formPollEmpty i).rli.inbound = s.rli.inbound
      ∧ (s.formPollEmpty i).rli.arrival = s.rli.arrival ∧ (s.formPollEmpty i).rli.sending = s.rli.sending
      ∧ (s.formPollEmpty i).rli.rlTx = s.rli.rlTx ∧ (s.formPollEmpty i).rli.rlMalformed = s.rli.rlMalformed
      ∧ (s.formPollEmpty i).rli.rlOverrun = s.rli.rlOverrun
      ∧ (s.formPollEmpty i).stt.radioIgnored = s.stt.radioIgnored ∧ (s.formPollEmpty i).fpl = s.fpl
      ∧ (s.formPollEmpty i).rck = s.rck ∧ (s.formPollEmpty i).coh = s.coh ∧ (s.formPollEmpty i).sel = s.sel
      ∧ (s.formPollEmpty i).ord.outstanding = s.ord.outstanding
      ∧ (s.formPollEmpty i).ord.quarantine = s.ord.quarantine ∧ (s.formPollEmpty i).ord.nextId = s.ord.nextId
      ∧ (s.formPollEmpty i).ord.lossCount = s.ord.lossCount ∧ (s.formPollEmpty i).ord.counters = s.ord.counters
      ∧ (s.formPollEmpty i).mgd = s.mgd ∧ (s.formPollEmpty i).mod = s.mod ∧ (s.formPollEmpty i).resetN = s.resetN
      ∧ (s.formPollEmpty i).pending = s.pending ∧ (∀ j, (s.formPollEmpty i).station j = s.station j)
      ∧ (∀ j, (s.formPollEmpty i).lanesOf j = s.lanesOf j) ∧ (∀ j m, (s.formPollEmpty i).lane j m = s.lane j m)
      ∧ (∀ k, (s.formPollEmpty i).cohort k = s.cohort k) ∧ (s.formPollEmpty i).outFree = s.outFree := by
  unfold State.formPollEmpty
  and_intros <;> intros <;> (try dsimp only) <;> (repeat' split)
    <;> first | (simp; done) | simp [State.station, State.lane, State.lanesOf, State.radioFree, State.outFree]

@[simp] theorem requestCancelAll_keeps (s : State) :
    (s.requestCancelAll).cli = s.cli ∧ (s.requestCancelAll).rli.inbound = s.rli.inbound
      ∧ (s.requestCancelAll).rli.arrival = s.rli.arrival ∧ (s.requestCancelAll).rli.sending = s.rli.sending
      ∧ (s.requestCancelAll).rli.rlTx = s.rli.rlTx ∧ (s.requestCancelAll).rli.rlMalformed = s.rli.rlMalformed
      ∧ (s.requestCancelAll).rli.rlOverrun = s.rli.rlOverrun ∧ (s.requestCancelAll).stt = s.stt
      ∧ (s.requestCancelAll).fpl = s.fpl ∧ (s.requestCancelAll).rck = s.rck ∧ (s.requestCancelAll).coh = s.coh
      ∧ (s.requestCancelAll).sel = s.sel ∧ (s.requestCancelAll).ord.outstanding = s.ord.outstanding
      ∧ (s.requestCancelAll).ord.quarantine = s.ord.quarantine ∧ (s.requestCancelAll).ord.nextId = s.ord.nextId
      ∧ (s.requestCancelAll).ord.lossCount = s.ord.lossCount ∧ (s.requestCancelAll).ord.counters = s.ord.counters
      ∧ (s.requestCancelAll).mgd = s.mgd ∧ (s.requestCancelAll).mod = s.mod ∧ (s.requestCancelAll).resetN = s.resetN
      ∧ (s.requestCancelAll).pending = s.pending ∧ (∀ j, (s.requestCancelAll).station j = s.station j)
      ∧ (∀ j, (s.requestCancelAll).lanesOf j = s.lanesOf j) ∧ (∀ j m, (s.requestCancelAll).lane j m = s.lane j m)
      ∧ (∀ k, (s.requestCancelAll).cohort k = s.cohort k) ∧ (s.requestCancelAll).outFree = s.outFree := by
  unfold State.requestCancelAll
  and_intros <;> intros <;> (try dsimp only) <;> (repeat' split)
    <;> first | (simp; done) | simp [State.station, State.lane, State.lanesOf, State.radioFree, State.outFree]

/-! ## Stations -/

@[simp] theorem setStationState_keeps (s : State) (i : Nat) (x : StationState) :
    (s.setStationState i x).cli = s.cli ∧ (s.setStationState i x).rli = s.rli
      ∧ (s.setStationState i x).stt.linkNotes = s.stt.linkNotes
      ∧ (s.setStationState i x).stt.radioIgnored = s.stt.radioIgnored ∧ (s.setStationState i x).fpl = s.fpl
      ∧ (s.setStationState i x).rck = s.rck ∧ (s.setStationState i x).coh = s.coh
      ∧ (s.setStationState i x).sel = s.sel ∧ (s.setStationState i x).ord = s.ord
      ∧ (s.setStationState i x).mgd = s.mgd ∧ (s.setStationState i x).mod = s.mod
      ∧ (s.setStationState i x).resetN = s.resetN ∧ (s.setStationState i x).pending = s.pending
      ∧ (∀ j, (s.setStationState i x).lanesOf j = s.lanesOf j)
      ∧ (∀ j m, (s.setStationState i x).lane j m = s.lane j m) ∧ (∀ k, (s.setStationState i x).cohort k = s.cohort k)
      ∧ (s.setStationState i x).radioFree = s.radioFree ∧ (s.setStationState i x).outFree = s.outFree := by
  unfold State.setStationState
  and_intros <;> intros <;> (try dsimp only) <;> (repeat' split)
    <;> first | (simp; done) | simp [State.station, State.lane, State.lanesOf, State.radioFree, State.outFree]

@[simp] theorem resumeAs_keeps (s : State) (i : Nat) (x : StationState) :
    (s.resumeAs i x).cli = s.cli ∧ (s.resumeAs i x).rli = s.rli
      ∧ (s.resumeAs i x).stt.linkNotes = s.stt.linkNotes ∧ (s.resumeAs i x).stt.radioIgnored = s.stt.radioIgnored
      ∧ (s.resumeAs i x).fpl = s.fpl ∧ (s.resumeAs i x).rck = s.rck ∧ (s.resumeAs i x).coh = s.coh
      ∧ (s.resumeAs i x).sel = s.sel ∧ (s.resumeAs i x).ord = s.ord ∧ (s.resumeAs i x).mgd = s.mgd
      ∧ (s.resumeAs i x).mod = s.mod ∧ (s.resumeAs i x).resetN = s.resetN ∧ (s.resumeAs i x).pending = s.pending
      ∧ (∀ j, (s.resumeAs i x).lanesOf j = s.lanesOf j) ∧ (∀ j m, (s.resumeAs i x).lane j m = s.lane j m)
      ∧ (∀ k, (s.resumeAs i x).cohort k = s.cohort k)
      ∧ (s.resumeAs i x).radioFree = s.radioFree ∧ (s.resumeAs i x).outFree = s.outFree := by
  unfold State.resumeAs
  and_intros <;> intros <;> first | (simp; done) | simp [State.station, State.lane, State.lanesOf, State.radioFree]

@[simp] theorem clearStation_keeps (s : State) (i : Nat) :
    (s.clearStation i).cli = s.cli ∧ (s.clearStation i).rli = s.rli
      ∧ (s.clearStation i).stt.linkNotes = s.stt.linkNotes ∧ (s.clearStation i).stt.radioIgnored = s.stt.radioIgnored
      ∧ (s.clearStation i).fpl = s.fpl ∧ (s.clearStation i).rck = s.rck ∧ (s.clearStation i).coh = s.coh
      ∧ (s.clearStation i).sel = s.sel ∧ (s.clearStation i).ord = s.ord ∧ (s.clearStation i).mgd = s.mgd
      ∧ (s.clearStation i).mod = s.mod ∧ (s.clearStation i).resetN = s.resetN ∧ (s.clearStation i).pending = s.pending
      ∧ (∀ j, (s.clearStation i).lanesOf j = s.lanesOf j) ∧ (∀ j m, (s.clearStation i).lane j m = s.lane j m)
      ∧ (∀ k, (s.clearStation i).cohort k = s.cohort k) ∧ (s.clearStation i).radioFree = s.radioFree
      ∧ (s.clearStation i).outFree = s.outFree := by
  unfold State.clearStation
  and_intros <;> intros <;> (try dsimp only) <;> (repeat' split)
    <;> first | (simp; done) | simp [State.station, State.lane, State.lanesOf, State.radioFree, State.outFree]

@[simp] theorem raiseInFlight_keeps (s : State) (i : Nat) :
    (s.raiseInFlight i).cli = s.cli ∧ (s.raiseInFlight i).rli = s.rli
      ∧ (s.raiseInFlight i).stt.linkNotes = s.stt.linkNotes
      ∧ (s.raiseInFlight i).stt.radioIgnored = s.stt.radioIgnored ∧ (s.raiseInFlight i).fpl = s.fpl
      ∧ (s.raiseInFlight i).rck = s.rck ∧ (s.raiseInFlight i).coh = s.coh ∧ (s.raiseInFlight i).sel = s.sel
      ∧ (s.raiseInFlight i).ord = s.ord ∧ (s.raiseInFlight i).mgd = s.mgd ∧ (s.raiseInFlight i).mod = s.mod
      ∧ (s.raiseInFlight i).resetN = s.resetN ∧ (s.raiseInFlight i).pending = s.pending
      ∧ (∀ j, (s.raiseInFlight i).lanesOf j = s.lanesOf j) ∧ (∀ j m, (s.raiseInFlight i).lane j m = s.lane j m)
      ∧ (∀ k, (s.raiseInFlight i).cohort k = s.cohort k) ∧ (s.raiseInFlight i).radioFree = s.radioFree
      ∧ (s.raiseInFlight i).outFree = s.outFree := by
  unfold State.raiseInFlight
  and_intros <;> intros <;> (try dsimp only) <;> (repeat' split)
    <;> first | (simp; done) | simp [State.station, State.lane, State.lanesOf, State.radioFree, State.outFree]

@[simp] theorem applyStagedStations_keeps (s : State) :
    (s.applyStagedStations).cli = s.cli ∧ (s.applyStagedStations).rli = s.rli
      ∧ (s.applyStagedStations).stt.linkNotes = s.stt.linkNotes
      ∧ (s.applyStagedStations).stt.radioIgnored = s.stt.radioIgnored ∧ (s.applyStagedStations).fpl = s.fpl
      ∧ (s.applyStagedStations).rck = s.rck ∧ (s.applyStagedStations).coh = s.coh
      ∧ (s.applyStagedStations).sel = s.sel ∧ (s.applyStagedStations).ord = s.ord
      ∧ (s.applyStagedStations).mgd = s.mgd ∧ (s.applyStagedStations).mod = s.mod
      ∧ (s.applyStagedStations).resetN = s.resetN ∧ (s.applyStagedStations).pending = s.pending
      ∧ (∀ j, (s.applyStagedStations).lanesOf j = s.lanesOf j)
      ∧ (∀ j m, (s.applyStagedStations).lane j m = s.lane j m) ∧ (∀ k, (s.applyStagedStations).cohort k = s.cohort k)
      ∧ (s.applyStagedStations).radioFree = s.radioFree ∧ (s.applyStagedStations).outFree = s.outFree := by
  unfold State.applyStagedStations
  and_intros <;> intros <;> (try dsimp only) <;> (repeat' split)
    <;> first | (simp; done) | simp [State.station, State.lane, State.lanesOf, State.radioFree, State.outFree]

@[simp] theorem chargeStation_keeps (s : State) (i est : Nat) :
    (s.chargeStation i est).cli = s.cli ∧ (s.chargeStation i est).rli = s.rli
      ∧ (s.chargeStation i est).stt.linkNotes = s.stt.linkNotes
      ∧ (s.chargeStation i est).stt.radioIgnored = s.stt.radioIgnored ∧ (s.chargeStation i est).fpl = s.fpl
      ∧ (s.chargeStation i est).rck = s.rck ∧ (s.chargeStation i est).coh = s.coh
      ∧ (s.chargeStation i est).sel = s.sel ∧ (s.chargeStation i est).ord = s.ord
      ∧ (s.chargeStation i est).mgd = s.mgd ∧ (s.chargeStation i est).mod = s.mod
      ∧ (s.chargeStation i est).resetN = s.resetN ∧ (s.chargeStation i est).pending = s.pending
      ∧ (∀ j, (s.chargeStation i est).lanesOf j = s.lanesOf j)
      ∧ (∀ j m, (s.chargeStation i est).lane j m = s.lane j m) ∧ (∀ k, (s.chargeStation i est).cohort k = s.cohort k)
      ∧ (s.chargeStation i est).radioFree = s.radioFree ∧ (s.chargeStation i est).outFree = s.outFree := by
  unfold State.chargeStation
  and_intros <;> intros <;> (try dsimp only) <;> (repeat' split)
    <;> first | (simp; done) | simp [State.station, State.lane, State.lanesOf, State.radioFree, State.outFree]

@[simp] theorem correctStation_keeps (s : State) (i : Nat) (d : Int) :
    (s.correctStation i d).cli = s.cli ∧ (s.correctStation i d).rli = s.rli
      ∧ (s.correctStation i d).stt.linkNotes = s.stt.linkNotes
      ∧ (s.correctStation i d).stt.radioIgnored = s.stt.radioIgnored ∧ (s.correctStation i d).fpl = s.fpl
      ∧ (s.correctStation i d).rck = s.rck ∧ (s.correctStation i d).coh = s.coh ∧ (s.correctStation i d).sel = s.sel
      ∧ (s.correctStation i d).ord = s.ord ∧ (s.correctStation i d).mgd = s.mgd ∧ (s.correctStation i d).mod = s.mod
      ∧ (s.correctStation i d).resetN = s.resetN ∧ (s.correctStation i d).pending = s.pending
      ∧ (∀ j, (s.correctStation i d).lanesOf j = s.lanesOf j) ∧ (∀ j m, (s.correctStation i d).lane j m = s.lane j m)
      ∧ (∀ k, (s.correctStation i d).cohort k = s.cohort k) ∧ (s.correctStation i d).radioFree = s.radioFree
      ∧ (s.correctStation i d).outFree = s.outFree := by
  unfold State.correctStation
  and_intros <;> intros <;> (try dsimp only) <;> (repeat' split)
    <;> first | (simp; done) | simp [State.station, State.lane, State.lanesOf, State.radioFree, State.outFree]

@[simp] theorem updateRate_keeps (s : State) (i q : Nat) :
    (s.updateRate i q).cli = s.cli ∧ (s.updateRate i q).rli = s.rli
      ∧ (s.updateRate i q).stt.linkNotes = s.stt.linkNotes ∧ (s.updateRate i q).stt.radioIgnored = s.stt.radioIgnored
      ∧ (s.updateRate i q).fpl = s.fpl ∧ (s.updateRate i q).rck = s.rck ∧ (s.updateRate i q).coh = s.coh
      ∧ (s.updateRate i q).sel = s.sel ∧ (s.updateRate i q).ord = s.ord ∧ (s.updateRate i q).mgd = s.mgd
      ∧ (s.updateRate i q).mod = s.mod ∧ (s.updateRate i q).resetN = s.resetN ∧ (s.updateRate i q).pending = s.pending
      ∧ (∀ j, (s.updateRate i q).lanesOf j = s.lanesOf j) ∧ (∀ j m, (s.updateRate i q).lane j m = s.lane j m)
      ∧ (∀ k, (s.updateRate i q).cohort k = s.cohort k) ∧ (s.updateRate i q).radioFree = s.radioFree
      ∧ (s.updateRate i q).outFree = s.outFree := by
  unfold State.updateRate
  and_intros <;> intros <;> (try dsimp only) <;> (repeat' split)
    <;> first | (simp; done) | simp [State.station, State.lane, State.lanesOf, State.radioFree, State.outFree]

@[simp] theorem countFrames_keeps (s : State) (i d f : Nat) :
    (s.countFrames i d f).cli = s.cli ∧ (s.countFrames i d f).rli = s.rli
      ∧ (s.countFrames i d f).stt.linkNotes = s.stt.linkNotes
      ∧ (s.countFrames i d f).stt.radioIgnored = s.stt.radioIgnored ∧ (s.countFrames i d f).fpl = s.fpl
      ∧ (s.countFrames i d f).rck = s.rck ∧ (s.countFrames i d f).coh = s.coh ∧ (s.countFrames i d f).sel = s.sel
      ∧ (s.countFrames i d f).ord = s.ord ∧ (s.countFrames i d f).mgd = s.mgd ∧ (s.countFrames i d f).mod = s.mod
      ∧ (s.countFrames i d f).resetN = s.resetN ∧ (s.countFrames i d f).pending = s.pending
      ∧ (∀ j, (s.countFrames i d f).lanesOf j = s.lanesOf j) ∧ (∀ j m, (s.countFrames i d f).lane j m = s.lane j m)
      ∧ (∀ k, (s.countFrames i d f).cohort k = s.cohort k) ∧ (s.countFrames i d f).radioFree = s.radioFree
      ∧ (s.countFrames i d f).outFree = s.outFree := by
  unfold State.countFrames
  and_intros <;> intros <;> (try dsimp only) <;> (repeat' split)
    <;> first | (simp; done) | simp [State.station, State.lane, State.lanesOf, State.radioFree, State.outFree]

@[simp] theorem countLost_keeps (s : State) (i n : Nat) :
    (s.countLost i n).cli = s.cli ∧ (s.countLost i n).rli = s.rli ∧ (s.countLost i n).stt.linkNotes = s.stt.linkNotes
      ∧ (s.countLost i n).stt.radioIgnored = s.stt.radioIgnored ∧ (s.countLost i n).fpl = s.fpl
      ∧ (s.countLost i n).rck = s.rck ∧ (s.countLost i n).coh = s.coh ∧ (s.countLost i n).sel = s.sel
      ∧ (s.countLost i n).ord = s.ord ∧ (s.countLost i n).mgd = s.mgd ∧ (s.countLost i n).mod = s.mod
      ∧ (s.countLost i n).resetN = s.resetN ∧ (s.countLost i n).pending = s.pending
      ∧ (∀ j, (s.countLost i n).lanesOf j = s.lanesOf j) ∧ (∀ j m, (s.countLost i n).lane j m = s.lane j m)
      ∧ (∀ k, (s.countLost i n).cohort k = s.cohort k) ∧ (s.countLost i n).radioFree = s.radioFree
      ∧ (s.countLost i n).outFree = s.outFree := by
  unfold State.countLost
  and_intros <;> intros <;> (try dsimp only) <;> (repeat' split)
    <;> first | (simp; done) | simp [State.station, State.lane, State.lanesOf, State.radioFree, State.outFree]

@[simp] theorem clearStationUsage_keeps (s : State) :
    (s.clearStationUsage).cli = s.cli ∧ (s.clearStationUsage).rli = s.rli
      ∧ (s.clearStationUsage).stt.linkNotes = s.stt.linkNotes
      ∧ (s.clearStationUsage).stt.radioIgnored = s.stt.radioIgnored ∧ (s.clearStationUsage).fpl = s.fpl
      ∧ (s.clearStationUsage).rck = s.rck ∧ (s.clearStationUsage).coh = s.coh ∧ (s.clearStationUsage).sel = s.sel
      ∧ (s.clearStationUsage).ord = s.ord ∧ (s.clearStationUsage).mgd = s.mgd ∧ (s.clearStationUsage).mod = s.mod
      ∧ (s.clearStationUsage).resetN = s.resetN ∧ (s.clearStationUsage).pending = s.pending
      ∧ (∀ j, (s.clearStationUsage).lanesOf j = s.lanesOf j) ∧ (∀ j m, (s.clearStationUsage).lane j m = s.lane j m)
      ∧ (∀ k, (s.clearStationUsage).cohort k = s.cohort k) ∧ (s.clearStationUsage).radioFree = s.radioFree
      ∧ (s.clearStationUsage).outFree = s.outFree := by
  unfold State.clearStationUsage
  and_intros <;> intros <;> (try dsimp only) <;> (repeat' split)
    <;> first | (simp; done) | simp [State.station, State.lane, State.lanesOf, State.radioFree, State.outFree]

@[simp] theorem refillStations_keeps (s : State) (p : Nat) :
    (s.refillStations p).cli = s.cli ∧ (s.refillStations p).rli = s.rli
      ∧ (s.refillStations p).stt.linkNotes = s.stt.linkNotes
      ∧ (s.refillStations p).stt.radioIgnored = s.stt.radioIgnored ∧ (s.refillStations p).fpl = s.fpl
      ∧ (s.refillStations p).rck = s.rck ∧ (s.refillStations p).coh = s.coh ∧ (s.refillStations p).sel = s.sel
      ∧ (s.refillStations p).ord = s.ord ∧ (s.refillStations p).mgd = s.mgd ∧ (s.refillStations p).mod = s.mod
      ∧ (s.refillStations p).resetN = s.resetN ∧ (s.refillStations p).pending = s.pending
      ∧ (∀ j, (s.refillStations p).lanesOf j = s.lanesOf j) ∧ (∀ j m, (s.refillStations p).lane j m = s.lane j m)
      ∧ (∀ k, (s.refillStations p).cohort k = s.cohort k) ∧ (s.refillStations p).radioFree = s.radioFree
      ∧ (s.refillStations p).outFree = s.outFree := by
  unfold State.refillStations
  and_intros <;> intros <;> (try dsimp only) <;> (repeat' split)
    <;> first | (simp; done) | simp [State.station, State.lane, State.lanesOf, State.radioFree, State.outFree]

@[simp] theorem reclampStations_keeps (s : State) :
    (s.reclampStations).cli = s.cli ∧ (s.reclampStations).rli = s.rli
      ∧ (s.reclampStations).stt.linkNotes = s.stt.linkNotes
      ∧ (s.reclampStations).stt.radioIgnored = s.stt.radioIgnored ∧ (s.reclampStations).fpl = s.fpl
      ∧ (s.reclampStations).rck = s.rck ∧ (s.reclampStations).coh = s.coh ∧ (s.reclampStations).sel = s.sel
      ∧ (s.reclampStations).ord = s.ord ∧ (s.reclampStations).mgd = s.mgd ∧ (s.reclampStations).mod = s.mod
      ∧ (s.reclampStations).resetN = s.resetN ∧ (s.reclampStations).pending = s.pending
      ∧ (∀ j, (s.reclampStations).lanesOf j = s.lanesOf j) ∧ (∀ j m, (s.reclampStations).lane j m = s.lane j m)
      ∧ (∀ k, (s.reclampStations).cohort k = s.cohort k) ∧ (s.reclampStations).radioFree = s.radioFree
      ∧ (s.reclampStations).outFree = s.outFree := by
  unfold State.reclampStations
  and_intros <;> intros <;> (try dsimp only) <;> (repeat' split)
    <;> first | (simp; done) | simp [State.station, State.lane, State.lanesOf, State.radioFree, State.outFree]

@[simp] theorem recomputeMembership_keeps (s : State) :
    (s.recomputeMembership).cli = s.cli ∧ (s.recomputeMembership).rli = s.rli
      ∧ (s.recomputeMembership).stt.linkNotes = s.stt.linkNotes
      ∧ (s.recomputeMembership).stt.radioIgnored = s.stt.radioIgnored ∧ (s.recomputeMembership).fpl = s.fpl
      ∧ (s.recomputeMembership).rck = s.rck ∧ (s.recomputeMembership).coh = s.coh
      ∧ (s.recomputeMembership).sel = s.sel ∧ (s.recomputeMembership).ord = s.ord
      ∧ (s.recomputeMembership).mgd = s.mgd ∧ (s.recomputeMembership).mod = s.mod
      ∧ (s.recomputeMembership).resetN = s.resetN ∧ (s.recomputeMembership).pending = s.pending
      ∧ (∀ j, (s.recomputeMembership).lanesOf j = s.lanesOf j)
      ∧ (∀ j m, (s.recomputeMembership).lane j m = s.lane j m) ∧ (∀ k, (s.recomputeMembership).cohort k = s.cohort k)
      ∧ (s.recomputeMembership).radioFree = s.radioFree ∧ (s.recomputeMembership).outFree = s.outFree := by
  unfold State.recomputeMembership
  and_intros <;> intros <;> (try dsimp only) <;> (repeat' split)
    <;> first | (simp; done) | simp [State.station, State.lane, State.lanesOf, State.radioFree, State.outFree]

@[simp] theorem membershipAfter_keeps (s : State) (b : Coh) :
    (s.membershipAfter b).cli = s.cli ∧ (s.membershipAfter b).rli = s.rli
      ∧ (s.membershipAfter b).stt.linkNotes = s.stt.linkNotes
      ∧ (s.membershipAfter b).stt.radioIgnored = s.stt.radioIgnored ∧ (s.membershipAfter b).fpl = s.fpl
      ∧ (s.membershipAfter b).rck = s.rck ∧ (s.membershipAfter b).coh = s.coh ∧ (s.membershipAfter b).sel = s.sel
      ∧ (s.membershipAfter b).ord = s.ord ∧ (s.membershipAfter b).mgd = s.mgd ∧ (s.membershipAfter b).mod = s.mod
      ∧ (s.membershipAfter b).resetN = s.resetN ∧ (s.membershipAfter b).pending = s.pending
      ∧ (∀ j, (s.membershipAfter b).lanesOf j = s.lanesOf j) ∧ (∀ j m, (s.membershipAfter b).lane j m = s.lane j m)
      ∧ (∀ k, (s.membershipAfter b).cohort k = s.cohort k) ∧ (s.membershipAfter b).radioFree = s.radioFree
      ∧ (s.membershipAfter b).outFree = s.outFree := by
  unfold State.membershipAfter
  and_intros <;> intros <;> (try dsimp only) <;> (repeat' split)
    <;> first | (simp; done) | simp [State.station, State.lane, State.lanesOf, State.radioFree, State.outFree]

@[simp] theorem softResetStations_keeps (s : State) :
    (s.softResetStations).cli = s.cli ∧ (s.softResetStations).rli = s.rli
      ∧ (s.softResetStations).stt.linkNotes = s.stt.linkNotes ∧ (s.softResetStations).fpl = s.fpl
      ∧ (s.softResetStations).rck = s.rck ∧ (s.softResetStations).coh = s.coh ∧ (s.softResetStations).sel = s.sel
      ∧ (s.softResetStations).ord = s.ord ∧ (s.softResetStations).mgd = s.mgd ∧ (s.softResetStations).mod = s.mod
      ∧ (s.softResetStations).resetN = s.resetN ∧ (s.softResetStations).pending = s.pending
      ∧ (∀ j, (s.softResetStations).lanesOf j = s.lanesOf j) ∧ (∀ j m, (s.softResetStations).lane j m = s.lane j m)
      ∧ (∀ k, (s.softResetStations).cohort k = s.cohort k) ∧ (s.softResetStations).radioFree = s.radioFree
      ∧ (s.softResetStations).outFree = s.outFree := by
  unfold State.softResetStations
  and_intros <;> intros <;> (try dsimp only) <;> (repeat' split)
    <;> first | (simp; done) | simp [State.station, State.lane, State.lanesOf, State.radioFree, State.outFree]

@[simp] theorem ignoreRadio_keeps (s : State) :
    (s.ignoreRadio).cli = s.cli ∧ (s.ignoreRadio).rli = s.rli ∧ (s.ignoreRadio).stt.linkNotes = s.stt.linkNotes
      ∧ (s.ignoreRadio).fpl = s.fpl ∧ (s.ignoreRadio).rck = s.rck ∧ (s.ignoreRadio).coh = s.coh
      ∧ (s.ignoreRadio).sel = s.sel ∧ (s.ignoreRadio).ord = s.ord ∧ (s.ignoreRadio).mgd = s.mgd
      ∧ (s.ignoreRadio).mod = s.mod ∧ (s.ignoreRadio).resetN = s.resetN ∧ (s.ignoreRadio).pending = s.pending
      ∧ (∀ j, (s.ignoreRadio).station j = s.station j) ∧ (∀ j, (s.ignoreRadio).lanesOf j = s.lanesOf j)
      ∧ (∀ j m, (s.ignoreRadio).lane j m = s.lane j m) ∧ (∀ k, (s.ignoreRadio).cohort k = s.cohort k)
      ∧ (s.ignoreRadio).radioFree = s.radioFree ∧ (s.ignoreRadio).outFree = s.outFree := by
  unfold State.ignoreRadio
  simp [State.station]

@[simp] theorem laneNonempty_keeps (s : State) (i : Nat) (l : Lane) :
    (s.laneNonempty i l).cli = s.cli ∧ (s.laneNonempty i l).rli = s.rli
      ∧ (s.laneNonempty i l).stt.linkNotes = s.stt.linkNotes
      ∧ (s.laneNonempty i l).stt.radioIgnored = s.stt.radioIgnored ∧ (s.laneNonempty i l).fpl = s.fpl
      ∧ (s.laneNonempty i l).rck = s.rck ∧ (s.laneNonempty i l).coh = s.coh
      ∧ (s.laneNonempty i l).sel.poll = s.sel.poll ∧ (s.laneNonempty i l).sel.groupBudget = s.sel.groupBudget
      ∧ (s.laneNonempty i l).sel.promptBudget = s.sel.promptBudget
      ∧ (s.laneNonempty i l).sel.groupAllot = s.sel.groupAllot
      ∧ (s.laneNonempty i l).sel.promptAllot = s.sel.promptAllot ∧ (s.laneNonempty i l).sel.choice = s.sel.choice
      ∧ (s.laneNonempty i l).ord = s.ord ∧ (s.laneNonempty i l).mgd = s.mgd ∧ (s.laneNonempty i l).mod = s.mod
      ∧ (s.laneNonempty i l).resetN = s.resetN ∧ (s.laneNonempty i l).pending = s.pending
      ∧ (∀ j, (s.laneNonempty i l).lanesOf j = s.lanesOf j) ∧ (∀ j m, (s.laneNonempty i l).lane j m = s.lane j m)
      ∧ (∀ k, (s.laneNonempty i l).cohort k = s.cohort k) ∧ (s.laneNonempty i l).radioFree = s.radioFree
      ∧ (s.laneNonempty i l).outFree = s.outFree := by
  unfold State.laneNonempty
  and_intros <;> intros <;> (try dsimp only) <;> (repeat' split)
    <;> first | (simp; done) | simp [State.station, State.lane, State.lanesOf, State.radioFree, State.outFree]

@[simp] theorem laneEmpty_keeps (s : State) (i : Nat) (l : Lane) :
    (s.laneEmpty i l).cli = s.cli ∧ (s.laneEmpty i l).rli.inbound = s.rli.inbound
      ∧ (s.laneEmpty i l).rli.arrival = s.rli.arrival ∧ (s.laneEmpty i l).rli.sending = s.rli.sending
      ∧ (s.laneEmpty i l).rli.rlTx = s.rli.rlTx ∧ (s.laneEmpty i l).rli.rlMalformed = s.rli.rlMalformed
      ∧ (s.laneEmpty i l).rli.rlOverrun = s.rli.rlOverrun ∧ (s.laneEmpty i l).stt.radioIgnored = s.stt.radioIgnored
      ∧ (s.laneEmpty i l).fpl = s.fpl ∧ (s.laneEmpty i l).rck = s.rck ∧ (s.laneEmpty i l).coh = s.coh
      ∧ (s.laneEmpty i l).sel.groupBudget = s.sel.groupBudget
      ∧ (s.laneEmpty i l).sel.promptBudget = s.sel.promptBudget ∧ (s.laneEmpty i l).sel.groupAllot = s.sel.groupAllot
      ∧ (s.laneEmpty i l).sel.promptAllot = s.sel.promptAllot ∧ (s.laneEmpty i l).sel.choice = s.sel.choice
      ∧ (s.laneEmpty i l).ord.outstanding = s.ord.outstanding ∧ (s.laneEmpty i l).ord.quarantine = s.ord.quarantine
      ∧ (s.laneEmpty i l).ord.nextId = s.ord.nextId ∧ (s.laneEmpty i l).ord.lossCount = s.ord.lossCount
      ∧ (s.laneEmpty i l).ord.counters = s.ord.counters ∧ (s.laneEmpty i l).mgd = s.mgd
      ∧ (s.laneEmpty i l).mod = s.mod ∧ (s.laneEmpty i l).resetN = s.resetN ∧ (s.laneEmpty i l).pending = s.pending
      ∧ (∀ j, (s.laneEmpty i l).lanesOf j = s.lanesOf j) ∧ (∀ j m, (s.laneEmpty i l).lane j m = s.lane j m)
      ∧ (∀ k, (s.laneEmpty i l).cohort k = s.cohort k) ∧ (s.laneEmpty i l).outFree = s.outFree := by
  unfold State.laneEmpty
  and_intros <;> intros <;> (try dsimp only) <;> (repeat' split)
    <;> first | (simp; done) | simp [State.station, State.lane, State.lanesOf, State.radioFree, State.outFree]

@[simp] theorem lowerInFlight_keeps (s : State) (i : Nat) :
    (s.lowerInFlight i).cli = s.cli ∧ (s.lowerInFlight i).rli.inbound = s.rli.inbound
      ∧ (s.lowerInFlight i).rli.arrival = s.rli.arrival ∧ (s.lowerInFlight i).rli.sending = s.rli.sending
      ∧ (s.lowerInFlight i).rli.rlTx = s.rli.rlTx ∧ (s.lowerInFlight i).rli.rlMalformed = s.rli.rlMalformed
      ∧ (s.lowerInFlight i).rli.rlOverrun = s.rli.rlOverrun
      ∧ (s.lowerInFlight i).stt.radioIgnored = s.stt.radioIgnored ∧ (s.lowerInFlight i).fpl = s.fpl
      ∧ (s.lowerInFlight i).rck = s.rck ∧ (s.lowerInFlight i).coh = s.coh ∧ (s.lowerInFlight i).sel = s.sel
      ∧ (s.lowerInFlight i).ord.outstanding = s.ord.outstanding
      ∧ (s.lowerInFlight i).ord.quarantine = s.ord.quarantine ∧ (s.lowerInFlight i).ord.nextId = s.ord.nextId
      ∧ (s.lowerInFlight i).ord.lossCount = s.ord.lossCount ∧ (s.lowerInFlight i).ord.counters = s.ord.counters
      ∧ (s.lowerInFlight i).mgd = s.mgd ∧ (s.lowerInFlight i).mod = s.mod ∧ (s.lowerInFlight i).resetN = s.resetN
      ∧ (s.lowerInFlight i).pending = s.pending ∧ (∀ j, (s.lowerInFlight i).lanesOf j = s.lanesOf j)
      ∧ (∀ j m, (s.lowerInFlight i).lane j m = s.lane j m) ∧ (∀ k, (s.lowerInFlight i).cohort k = s.cohort k)
      ∧ (s.lowerInFlight i).outFree = s.outFree := by
  unfold State.lowerInFlight
  and_intros <;> intros <;> (try dsimp only) <;> (repeat' split)
    <;> first | (simp; done) | simp [State.station, State.lane, State.lanesOf, State.radioFree, State.outFree]

/-! ## Frames -/

@[simp] theorem returnFrames_keeps (s : State) (rs : List Returning) :
    (s.returnFrames rs).cli = s.cli ∧ (s.returnFrames rs).rli = s.rli ∧ (s.returnFrames rs).stt = s.stt
      ∧ (s.returnFrames rs).fpl.freeEntries = s.fpl.freeEntries ∧ (s.returnFrames rs).fpl.lanes = s.fpl.lanes
      ∧ (s.returnFrames rs).fpl.expiry = s.fpl.expiry ∧ (s.returnFrames rs).fpl.nextSequence = s.fpl.nextSequence
      ∧ (s.returnFrames rs).fpl.framesAccepted = s.fpl.framesAccepted
      ∧ (s.returnFrames rs).fpl.framesRefused = s.fpl.framesRefused
      ∧ (s.returnFrames rs).fpl.framesRequeued = s.fpl.framesRequeued
      ∧ (s.returnFrames rs).fpl.framesExpired = s.fpl.framesExpired
      ∧ (s.returnFrames rs).fpl.tokenNotices = s.fpl.tokenNotices ∧ (s.returnFrames rs).rck = s.rck
      ∧ (s.returnFrames rs).coh = s.coh ∧ (s.returnFrames rs).sel = s.sel ∧ (s.returnFrames rs).ord = s.ord
      ∧ (s.returnFrames rs).mgd = s.mgd ∧ (s.returnFrames rs).mod = s.mod ∧ (s.returnFrames rs).resetN = s.resetN
      ∧ (s.returnFrames rs).pending = s.pending ∧ (∀ j, (s.returnFrames rs).station j = s.station j)
      ∧ (∀ j, (s.returnFrames rs).lanesOf j = s.lanesOf j) ∧ (∀ j m, (s.returnFrames rs).lane j m = s.lane j m)
      ∧ (∀ k, (s.returnFrames rs).cohort k = s.cohort k) ∧ (s.returnFrames rs).radioFree = s.radioFree
      ∧ (s.returnFrames rs).outFree = s.outFree := by
  unfold State.returnFrames
  simp [State.lane, State.lanesOf]

@[simp] theorem returnLane_keeps (s : State) (i : Nat) (x : FrameResult) (l : Lane) :
    (s.returnLane i x l).cli = s.cli ∧ (s.returnLane i x l).rli.inbound = s.rli.inbound
      ∧ (s.returnLane i x l).rli.arrival = s.rli.arrival ∧ (s.returnLane i x l).rli.sending = s.rli.sending
      ∧ (s.returnLane i x l).rli.rlTx = s.rli.rlTx ∧ (s.returnLane i x l).rli.rlMalformed = s.rli.rlMalformed
      ∧ (s.returnLane i x l).rli.rlOverrun = s.rli.rlOverrun
      ∧ (s.returnLane i x l).stt.radioIgnored = s.stt.radioIgnored
      ∧ (s.returnLane i x l).fpl.freeEntries = s.fpl.freeEntries
      ∧ (s.returnLane i x l).fpl.nextSequence = s.fpl.nextSequence
      ∧ (s.returnLane i x l).fpl.framesAccepted = s.fpl.framesAccepted
      ∧ (s.returnLane i x l).fpl.framesRefused = s.fpl.framesRefused
      ∧ (s.returnLane i x l).fpl.framesRequeued = s.fpl.framesRequeued
      ∧ (s.returnLane i x l).fpl.framesExpired = s.fpl.framesExpired
      ∧ (s.returnLane i x l).fpl.tokenNotices = s.fpl.tokenNotices ∧ (s.returnLane i x l).rck = s.rck
      ∧ (s.returnLane i x l).coh = s.coh ∧ (s.returnLane i x l).sel.groupBudget = s.sel.groupBudget
      ∧ (s.returnLane i x l).sel.promptBudget = s.sel.promptBudget
      ∧ (s.returnLane i x l).sel.groupAllot = s.sel.groupAllot
      ∧ (s.returnLane i x l).sel.promptAllot = s.sel.promptAllot ∧ (s.returnLane i x l).sel.choice = s.sel.choice
      ∧ (s.returnLane i x l).ord.outstanding = s.ord.outstanding
      ∧ (s.returnLane i x l).ord.quarantine = s.ord.quarantine ∧ (s.returnLane i x l).ord.nextId = s.ord.nextId
      ∧ (s.returnLane i x l).ord.lossCount = s.ord.lossCount ∧ (s.returnLane i x l).ord.counters = s.ord.counters
      ∧ (s.returnLane i x l).mgd = s.mgd ∧ (s.returnLane i x l).mod = s.mod ∧ (s.returnLane i x l).resetN = s.resetN
      ∧ (s.returnLane i x l).pending = s.pending ∧ (∀ k, (s.returnLane i x l).cohort k = s.cohort k)
      ∧ (s.returnLane i x l).outFree = s.outFree := by
  unfold State.returnLane
  and_intros <;> intros <;> (try dsimp only) <;> (repeat' split)
    <;> first | (simp; done) | simp [State.station, State.lane, State.lanesOf, State.radioFree, State.outFree]

@[simp] theorem returnLanes_keeps (s : State) (i : Nat) (x : FrameResult) (ls : List Lane) :
    (s.returnLanes i x ls).cli = s.cli ∧ (s.returnLanes i x ls).rli.inbound = s.rli.inbound
      ∧ (s.returnLanes i x ls).rli.arrival = s.rli.arrival ∧ (s.returnLanes i x ls).rli.sending = s.rli.sending
      ∧ (s.returnLanes i x ls).rli.rlTx = s.rli.rlTx ∧ (s.returnLanes i x ls).rli.rlMalformed = s.rli.rlMalformed
      ∧ (s.returnLanes i x ls).rli.rlOverrun = s.rli.rlOverrun
      ∧ (s.returnLanes i x ls).stt.radioIgnored = s.stt.radioIgnored
      ∧ (s.returnLanes i x ls).fpl.freeEntries = s.fpl.freeEntries
      ∧ (s.returnLanes i x ls).fpl.nextSequence = s.fpl.nextSequence
      ∧ (s.returnLanes i x ls).fpl.framesAccepted = s.fpl.framesAccepted
      ∧ (s.returnLanes i x ls).fpl.framesRefused = s.fpl.framesRefused
      ∧ (s.returnLanes i x ls).fpl.framesRequeued = s.fpl.framesRequeued
      ∧ (s.returnLanes i x ls).fpl.framesExpired = s.fpl.framesExpired
      ∧ (s.returnLanes i x ls).fpl.tokenNotices = s.fpl.tokenNotices ∧ (s.returnLanes i x ls).rck = s.rck
      ∧ (s.returnLanes i x ls).coh = s.coh ∧ (s.returnLanes i x ls).sel.groupBudget = s.sel.groupBudget
      ∧ (s.returnLanes i x ls).sel.promptBudget = s.sel.promptBudget
      ∧ (s.returnLanes i x ls).sel.groupAllot = s.sel.groupAllot
      ∧ (s.returnLanes i x ls).sel.promptAllot = s.sel.promptAllot ∧ (s.returnLanes i x ls).sel.choice = s.sel.choice
      ∧ (s.returnLanes i x ls).ord.outstanding = s.ord.outstanding
      ∧ (s.returnLanes i x ls).ord.quarantine = s.ord.quarantine ∧ (s.returnLanes i x ls).ord.nextId = s.ord.nextId
      ∧ (s.returnLanes i x ls).ord.lossCount = s.ord.lossCount ∧ (s.returnLanes i x ls).ord.counters = s.ord.counters
      ∧ (s.returnLanes i x ls).mgd = s.mgd ∧ (s.returnLanes i x ls).mod = s.mod
      ∧ (s.returnLanes i x ls).resetN = s.resetN ∧ (s.returnLanes i x ls).pending = s.pending
      ∧ (∀ k, (s.returnLanes i x ls).cohort k = s.cohort k) ∧ (s.returnLanes i x ls).outFree = s.outFree := by
  unfold State.returnLanes
  induction ls generalizing s with
  | nil => simp
  | cons l ls ih => simp [ih]

@[simp] theorem flushAll_keeps (s : State) :
    (s.flushAll).cli = s.cli ∧ (s.flushAll).rli.inbound = s.rli.inbound ∧ (s.flushAll).rli.arrival = s.rli.arrival
      ∧ (s.flushAll).rli.sending = s.rli.sending ∧ (s.flushAll).rli.rlTx = s.rli.rlTx
      ∧ (s.flushAll).rli.rlMalformed = s.rli.rlMalformed ∧ (s.flushAll).rli.rlOverrun = s.rli.rlOverrun
      ∧ (s.flushAll).stt.radioIgnored = s.stt.radioIgnored ∧ (s.flushAll).fpl.freeEntries = s.fpl.freeEntries
      ∧ (s.flushAll).fpl.nextSequence = s.fpl.nextSequence ∧ (s.flushAll).fpl.framesAccepted = s.fpl.framesAccepted
      ∧ (s.flushAll).fpl.framesRefused = s.fpl.framesRefused ∧ (s.flushAll).fpl.framesRequeued = s.fpl.framesRequeued
      ∧ (s.flushAll).fpl.framesExpired = s.fpl.framesExpired ∧ (s.flushAll).fpl.tokenNotices = s.fpl.tokenNotices
      ∧ (s.flushAll).rck = s.rck ∧ (s.flushAll).coh = s.coh ∧ (s.flushAll).sel.groupBudget = s.sel.groupBudget
      ∧ (s.flushAll).sel.promptBudget = s.sel.promptBudget ∧ (s.flushAll).sel.groupAllot = s.sel.groupAllot
      ∧ (s.flushAll).sel.promptAllot = s.sel.promptAllot ∧ (s.flushAll).sel.choice = s.sel.choice
      ∧ (s.flushAll).ord.outstanding = s.ord.outstanding ∧ (s.flushAll).ord.quarantine = s.ord.quarantine
      ∧ (s.flushAll).ord.nextId = s.ord.nextId ∧ (s.flushAll).ord.lossCount = s.ord.lossCount
      ∧ (s.flushAll).ord.counters = s.ord.counters ∧ (s.flushAll).mgd = s.mgd ∧ (s.flushAll).mod = s.mod
      ∧ (s.flushAll).resetN = s.resetN ∧ (s.flushAll).pending = s.pending ∧ (∀ k, (s.flushAll).cohort k = s.cohort k)
      ∧ (s.flushAll).outFree = s.outFree := by
  unfold State.flushAll
  generalize List.range Config.stationCount = is
  induction is generalizing s with
  | nil => simp
  | cons i is ih => simp [ih]

@[simp] theorem acceptFrame_keeps (s : State) (f : Frame) :
    (s.acceptFrame f).cli = s.cli ∧ (s.acceptFrame f).rli = s.rli ∧ (s.acceptFrame f).stt.linkNotes = s.stt.linkNotes
      ∧ (s.acceptFrame f).stt.radioIgnored = s.stt.radioIgnored ∧ (s.acceptFrame f).fpl.returnList = s.fpl.returnList
      ∧ (s.acceptFrame f).fpl.framesRefused = s.fpl.framesRefused
      ∧ (s.acceptFrame f).fpl.framesRequeued = s.fpl.framesRequeued
      ∧ (s.acceptFrame f).fpl.framesExpired = s.fpl.framesExpired
      ∧ (s.acceptFrame f).fpl.tokenNotices = s.fpl.tokenNotices ∧ (s.acceptFrame f).rck = s.rck
      ∧ (s.acceptFrame f).coh = s.coh ∧ (s.acceptFrame f).sel.poll = s.sel.poll
      ∧ (s.acceptFrame f).sel.groupBudget = s.sel.groupBudget
      ∧ (s.acceptFrame f).sel.promptBudget = s.sel.promptBudget ∧ (s.acceptFrame f).sel.groupAllot = s.sel.groupAllot
      ∧ (s.acceptFrame f).sel.promptAllot = s.sel.promptAllot ∧ (s.acceptFrame f).sel.choice = s.sel.choice
      ∧ (s.acceptFrame f).ord = s.ord ∧ (s.acceptFrame f).mgd = s.mgd ∧ (s.acceptFrame f).mod = s.mod
      ∧ (s.acceptFrame f).resetN = s.resetN ∧ (s.acceptFrame f).pending = s.pending
      ∧ (∀ k, (s.acceptFrame f).cohort k = s.cohort k) ∧ (s.acceptFrame f).radioFree = s.radioFree
      ∧ (s.acceptFrame f).outFree = s.outFree := by
  unfold State.acceptFrame
  and_intros <;> intros <;> (try dsimp only) <;> (repeat' split)
    <;> first | (simp; done) | simp [State.station, State.lane, State.lanesOf, State.radioFree, State.outFree]

@[simp] theorem takeFrames_keeps (s : State) (i : Nat) (l : Lane) (n : Nat) :
    (s.takeFrames i l n).cli = s.cli ∧ (s.takeFrames i l n).rli.inbound = s.rli.inbound
      ∧ (s.takeFrames i l n).rli.arrival = s.rli.arrival ∧ (s.takeFrames i l n).rli.sending = s.rli.sending
      ∧ (s.takeFrames i l n).rli.rlTx = s.rli.rlTx ∧ (s.takeFrames i l n).rli.rlMalformed = s.rli.rlMalformed
      ∧ (s.takeFrames i l n).rli.rlOverrun = s.rli.rlOverrun
      ∧ (s.takeFrames i l n).stt.radioIgnored = s.stt.radioIgnored
      ∧ (s.takeFrames i l n).fpl.freeEntries = s.fpl.freeEntries
      ∧ (s.takeFrames i l n).fpl.returnList = s.fpl.returnList
      ∧ (s.takeFrames i l n).fpl.nextSequence = s.fpl.nextSequence
      ∧ (s.takeFrames i l n).fpl.framesAccepted = s.fpl.framesAccepted
      ∧ (s.takeFrames i l n).fpl.framesRefused = s.fpl.framesRefused
      ∧ (s.takeFrames i l n).fpl.framesRequeued = s.fpl.framesRequeued
      ∧ (s.takeFrames i l n).fpl.framesExpired = s.fpl.framesExpired
      ∧ (s.takeFrames i l n).fpl.tokenNotices = s.fpl.tokenNotices ∧ (s.takeFrames i l n).rck = s.rck
      ∧ (s.takeFrames i l n).coh = s.coh ∧ (s.takeFrames i l n).sel.groupBudget = s.sel.groupBudget
      ∧ (s.takeFrames i l n).sel.promptBudget = s.sel.promptBudget
      ∧ (s.takeFrames i l n).sel.groupAllot = s.sel.groupAllot
      ∧ (s.takeFrames i l n).sel.promptAllot = s.sel.promptAllot ∧ (s.takeFrames i l n).sel.choice = s.sel.choice
      ∧ (s.takeFrames i l n).ord.outstanding = s.ord.outstanding
      ∧ (s.takeFrames i l n).ord.quarantine = s.ord.quarantine ∧ (s.takeFrames i l n).ord.nextId = s.ord.nextId
      ∧ (s.takeFrames i l n).ord.lossCount = s.ord.lossCount ∧ (s.takeFrames i l n).ord.counters = s.ord.counters
      ∧ (s.takeFrames i l n).mgd = s.mgd ∧ (s.takeFrames i l n).mod = s.mod ∧ (s.takeFrames i l n).resetN = s.resetN
      ∧ (s.takeFrames i l n).pending = s.pending ∧ (∀ k, (s.takeFrames i l n).cohort k = s.cohort k)
      ∧ (s.takeFrames i l n).outFree = s.outFree := by
  unfold State.takeFrames
  and_intros <;> intros <;> (try dsimp only) <;> (repeat' split)
    <;> first | (simp; done) | simp [State.station, State.lane, State.lanesOf, State.radioFree, State.outFree]

@[simp] theorem requeueFrames_keeps (s : State) (i : Nat) (l : Lane) (fs : List Frame) :
    (s.requeueFrames i l fs).cli = s.cli ∧ (s.requeueFrames i l fs).rli = s.rli
      ∧ (s.requeueFrames i l fs).stt.linkNotes = s.stt.linkNotes
      ∧ (s.requeueFrames i l fs).stt.radioIgnored = s.stt.radioIgnored
      ∧ (s.requeueFrames i l fs).fpl.freeEntries = s.fpl.freeEntries
      ∧ (s.requeueFrames i l fs).fpl.returnList = s.fpl.returnList
      ∧ (s.requeueFrames i l fs).fpl.nextSequence = s.fpl.nextSequence
      ∧ (s.requeueFrames i l fs).fpl.framesAccepted = s.fpl.framesAccepted
      ∧ (s.requeueFrames i l fs).fpl.framesRefused = s.fpl.framesRefused
      ∧ (s.requeueFrames i l fs).fpl.framesExpired = s.fpl.framesExpired
      ∧ (s.requeueFrames i l fs).fpl.tokenNotices = s.fpl.tokenNotices ∧ (s.requeueFrames i l fs).rck = s.rck
      ∧ (s.requeueFrames i l fs).coh = s.coh ∧ (s.requeueFrames i l fs).sel.poll = s.sel.poll
      ∧ (s.requeueFrames i l fs).sel.groupBudget = s.sel.groupBudget
      ∧ (s.requeueFrames i l fs).sel.promptBudget = s.sel.promptBudget
      ∧ (s.requeueFrames i l fs).sel.groupAllot = s.sel.groupAllot
      ∧ (s.requeueFrames i l fs).sel.promptAllot = s.sel.promptAllot
      ∧ (s.requeueFrames i l fs).sel.choice = s.sel.choice ∧ (s.requeueFrames i l fs).ord = s.ord
      ∧ (s.requeueFrames i l fs).mgd = s.mgd ∧ (s.requeueFrames i l fs).mod = s.mod
      ∧ (s.requeueFrames i l fs).resetN = s.resetN ∧ (s.requeueFrames i l fs).pending = s.pending
      ∧ (∀ k, (s.requeueFrames i l fs).cohort k = s.cohort k) ∧ (s.requeueFrames i l fs).radioFree = s.radioFree
      ∧ (s.requeueFrames i l fs).outFree = s.outFree := by
  unfold State.requeueFrames
  and_intros <;> intros <;> (try dsimp only) <;> (repeat' split)
    <;> first | (simp; done) | simp [State.station, State.lane, State.lanesOf, State.radioFree, State.outFree]

@[simp] theorem expireFrame_keeps (s : State) (r : ExpiryRef) :
    (s.expireFrame r).cli = s.cli ∧ (s.expireFrame r).rli.inbound = s.rli.inbound
      ∧ (s.expireFrame r).rli.arrival = s.rli.arrival ∧ (s.expireFrame r).rli.sending = s.rli.sending
      ∧ (s.expireFrame r).rli.rlTx = s.rli.rlTx ∧ (s.expireFrame r).rli.rlMalformed = s.rli.rlMalformed
      ∧ (s.expireFrame r).rli.rlOverrun = s.rli.rlOverrun ∧ (s.expireFrame r).stt.radioIgnored = s.stt.radioIgnored
      ∧ (s.expireFrame r).fpl.freeEntries = s.fpl.freeEntries
      ∧ (s.expireFrame r).fpl.nextSequence = s.fpl.nextSequence
      ∧ (s.expireFrame r).fpl.framesAccepted = s.fpl.framesAccepted
      ∧ (s.expireFrame r).fpl.framesRefused = s.fpl.framesRefused
      ∧ (s.expireFrame r).fpl.framesRequeued = s.fpl.framesRequeued
      ∧ (s.expireFrame r).fpl.tokenNotices = s.fpl.tokenNotices ∧ (s.expireFrame r).rck = s.rck
      ∧ (s.expireFrame r).coh = s.coh ∧ (s.expireFrame r).sel.groupBudget = s.sel.groupBudget
      ∧ (s.expireFrame r).sel.promptBudget = s.sel.promptBudget ∧ (s.expireFrame r).sel.groupAllot = s.sel.groupAllot
      ∧ (s.expireFrame r).sel.promptAllot = s.sel.promptAllot ∧ (s.expireFrame r).sel.choice = s.sel.choice
      ∧ (s.expireFrame r).ord.outstanding = s.ord.outstanding ∧ (s.expireFrame r).ord.quarantine = s.ord.quarantine
      ∧ (s.expireFrame r).ord.nextId = s.ord.nextId ∧ (s.expireFrame r).ord.lossCount = s.ord.lossCount
      ∧ (s.expireFrame r).ord.counters = s.ord.counters ∧ (s.expireFrame r).mgd = s.mgd
      ∧ (s.expireFrame r).mod = s.mod ∧ (s.expireFrame r).resetN = s.resetN ∧ (s.expireFrame r).pending = s.pending
      ∧ (∀ k, (s.expireFrame r).cohort k = s.cohort k) ∧ (s.expireFrame r).outFree = s.outFree := by
  unfold State.expireFrame
  and_intros <;> intros <;> (try dsimp only) <;> (repeat' split)
    <;> first | (simp; done) | simp [State.station, State.lane, State.lanesOf, State.radioFree, State.outFree]

/-! ## Cohorts -/

@[simp] theorem applyStagedCohorts_keeps (s : State) :
    (s.applyStagedCohorts).cli = s.cli ∧ (s.applyStagedCohorts).rli = s.rli
      ∧ (s.applyStagedCohorts).stt.linkNotes = s.stt.linkNotes
      ∧ (s.applyStagedCohorts).stt.radioIgnored = s.stt.radioIgnored ∧ (s.applyStagedCohorts).fpl = s.fpl
      ∧ (s.applyStagedCohorts).rck = s.rck ∧ (s.applyStagedCohorts).sel = s.sel ∧ (s.applyStagedCohorts).ord = s.ord
      ∧ (s.applyStagedCohorts).mgd = s.mgd ∧ (s.applyStagedCohorts).mod = s.mod
      ∧ (s.applyStagedCohorts).resetN = s.resetN ∧ (s.applyStagedCohorts).pending = s.pending
      ∧ (∀ j, (s.applyStagedCohorts).lanesOf j = s.lanesOf j) ∧ (∀ j m, (s.applyStagedCohorts).lane j m = s.lane j m)
      ∧ (s.applyStagedCohorts).radioFree = s.radioFree ∧ (s.applyStagedCohorts).outFree = s.outFree := by
  unfold State.applyStagedCohorts
  and_intros <;> intros <;> (try dsimp only) <;> (repeat' split)
    <;> first | (simp; done) | simp [State.station, State.lane, State.lanesOf, State.radioFree, State.outFree]

@[simp] theorem clearCohortUsage_keeps (s : State) :
    (s.clearCohortUsage).cli = s.cli ∧ (s.clearCohortUsage).rli = s.rli ∧ (s.clearCohortUsage).stt = s.stt
      ∧ (s.clearCohortUsage).fpl = s.fpl ∧ (s.clearCohortUsage).rck = s.rck ∧ (s.clearCohortUsage).sel = s.sel
      ∧ (s.clearCohortUsage).ord = s.ord ∧ (s.clearCohortUsage).mgd = s.mgd ∧ (s.clearCohortUsage).mod = s.mod
      ∧ (s.clearCohortUsage).resetN = s.resetN ∧ (s.clearCohortUsage).pending = s.pending
      ∧ (∀ j, (s.clearCohortUsage).station j = s.station j) ∧ (∀ j, (s.clearCohortUsage).lanesOf j = s.lanesOf j)
      ∧ (∀ j m, (s.clearCohortUsage).lane j m = s.lane j m) ∧ (s.clearCohortUsage).radioFree = s.radioFree
      ∧ (s.clearCohortUsage).outFree = s.outFree := by
  unfold State.clearCohortUsage
  and_intros <;> intros <;> (try dsimp only) <;> (repeat' split)
    <;> first | (simp; done) | simp [State.station, State.lane, State.lanesOf, State.radioFree, State.outFree]

@[simp] theorem refillCohorts_keeps (s : State) (u : Nat) :
    (s.refillCohorts u).cli = s.cli ∧ (s.refillCohorts u).rli = s.rli ∧ (s.refillCohorts u).stt = s.stt
      ∧ (s.refillCohorts u).fpl = s.fpl ∧ (s.refillCohorts u).rck = s.rck ∧ (s.refillCohorts u).sel = s.sel
      ∧ (s.refillCohorts u).ord = s.ord ∧ (s.refillCohorts u).mgd = s.mgd ∧ (s.refillCohorts u).mod = s.mod
      ∧ (s.refillCohorts u).resetN = s.resetN ∧ (s.refillCohorts u).pending = s.pending
      ∧ (∀ j, (s.refillCohorts u).station j = s.station j) ∧ (∀ j, (s.refillCohorts u).lanesOf j = s.lanesOf j)
      ∧ (∀ j m, (s.refillCohorts u).lane j m = s.lane j m) ∧ (s.refillCohorts u).radioFree = s.radioFree
      ∧ (s.refillCohorts u).outFree = s.outFree := by
  unfold State.refillCohorts
  and_intros <;> intros <;> (try dsimp only) <;> (repeat' split)
    <;> first | (simp; done) | simp [State.station, State.lane, State.lanesOf, State.radioFree, State.outFree]

@[simp] theorem chargeCohort_keeps (s : State) (c : Option Nat) (e : Nat) :
    (s.chargeCohort c e).cli = s.cli ∧ (s.chargeCohort c e).rli = s.rli ∧ (s.chargeCohort c e).stt = s.stt
      ∧ (s.chargeCohort c e).fpl = s.fpl ∧ (s.chargeCohort c e).rck = s.rck ∧ (s.chargeCohort c e).sel = s.sel
      ∧ (s.chargeCohort c e).ord = s.ord ∧ (s.chargeCohort c e).mgd = s.mgd ∧ (s.chargeCohort c e).mod = s.mod
      ∧ (s.chargeCohort c e).resetN = s.resetN ∧ (s.chargeCohort c e).pending = s.pending
      ∧ (∀ j, (s.chargeCohort c e).station j = s.station j) ∧ (∀ j, (s.chargeCohort c e).lanesOf j = s.lanesOf j)
      ∧ (∀ j m, (s.chargeCohort c e).lane j m = s.lane j m) ∧ (s.chargeCohort c e).radioFree = s.radioFree
      ∧ (s.chargeCohort c e).outFree = s.outFree := by
  unfold State.chargeCohort
  and_intros <;> intros <;> (try dsimp only) <;> (repeat' split)
    <;> first | (simp; done) | simp [State.station, State.lane, State.lanesOf, State.radioFree, State.outFree]

@[simp] theorem correctCohort_keeps (s : State) (o : Order) (d : Int) :
    (s.correctCohort o d).cli = s.cli ∧ (s.correctCohort o d).rli = s.rli ∧ (s.correctCohort o d).stt = s.stt
      ∧ (s.correctCohort o d).fpl = s.fpl ∧ (s.correctCohort o d).rck = s.rck ∧ (s.correctCohort o d).sel = s.sel
      ∧ (s.correctCohort o d).ord = s.ord ∧ (s.correctCohort o d).mgd = s.mgd ∧ (s.correctCohort o d).mod = s.mod
      ∧ (s.correctCohort o d).resetN = s.resetN ∧ (s.correctCohort o d).pending = s.pending
      ∧ (∀ j, (s.correctCohort o d).station j = s.station j) ∧ (∀ j, (s.correctCohort o d).lanesOf j = s.lanesOf j)
      ∧ (∀ j m, (s.correctCohort o d).lane j m = s.lane j m) ∧ (s.correctCohort o d).radioFree = s.radioFree
      ∧ (s.correctCohort o d).outFree = s.outFree := by
  unfold State.correctCohort
  and_intros <;> intros <;> (try dsimp only) <;> (repeat' split)
    <;> first | (simp; done) | simp [State.station, State.lane, State.lanesOf, State.radioFree, State.outFree]

@[simp] theorem softResetCohorts_keeps (s : State) :
    (s.softResetCohorts).cli = s.cli ∧ (s.softResetCohorts).rli = s.rli ∧ (s.softResetCohorts).stt = s.stt
      ∧ (s.softResetCohorts).fpl = s.fpl ∧ (s.softResetCohorts).rck = s.rck ∧ (s.softResetCohorts).sel = s.sel
      ∧ (s.softResetCohorts).ord = s.ord ∧ (s.softResetCohorts).mgd = s.mgd ∧ (s.softResetCohorts).mod = s.mod
      ∧ (s.softResetCohorts).resetN = s.resetN ∧ (s.softResetCohorts).pending = s.pending
      ∧ (∀ j, (s.softResetCohorts).station j = s.station j) ∧ (∀ j, (s.softResetCohorts).lanesOf j = s.lanesOf j)
      ∧ (∀ j m, (s.softResetCohorts).lane j m = s.lane j m) ∧ (s.softResetCohorts).radioFree = s.radioFree
      ∧ (s.softResetCohorts).outFree = s.outFree := by
  unfold State.softResetCohorts
  and_intros <;> intros <;> (try dsimp only) <;> (repeat' split)
    <;> first | (simp; done) | simp [State.station, State.lane, State.lanesOf, State.radioFree, State.outFree]

/-! ## Selector and orders -/

/-- A step of a run changes nothing of SEL but the lists. -/
theorem pick_sel (s : State) {p : Picked} (h : s.pick = some p) :
    p.sel.groupDue = s.sel.groupDue ∧ p.sel.groupBudget = s.sel.groupBudget
      ∧ p.sel.promptBudget = s.sel.promptBudget ∧ p.sel.groupAllot = s.sel.groupAllot
      ∧ p.sel.promptAllot = s.sel.promptAllot := by
  simp only [State.pick, Option.orElse_eq_orElse, Option.orElse_eq_or, Option.or_eq_some_iff] at h
  rcases h with h | ⟨_, h | ⟨_, h | ⟨_, h | ⟨_, h⟩⟩⟩⟩
  · unfold State.groupStep at h
    split at h <;> simp at h
    simp [← h]
  · unfold State.pollStep at h
    split at h <;> simp at h
    obtain ⟨_, _, h⟩ := h
    simp [← h]
  · unfold State.promptStep at h
    split at h <;> simp at h
    obtain ⟨_, _, h⟩ := h
    simp [← h]
  · unfold State.fairPass State.scan at h
    simp only [Option.bind_eq_some_iff, Option.map_eq_some_iff] at h
    obtain ⟨_, _, _, _, h⟩ := h
    simp [← h]
  · unfold State.spillPass State.scan at h
    split at h <;> simp [Option.bind_eq_some_iff] at h
    obtain ⟨_, _, _, _, h⟩ := h
    simp [← h]

@[simp] theorem selectionRun_keeps (s : State) :
    (s.selectionRun).cli = s.cli ∧ (s.selectionRun).rli = s.rli ∧ (s.selectionRun).stt = s.stt
      ∧ (s.selectionRun).fpl = s.fpl ∧ (s.selectionRun).rck = s.rck ∧ (s.selectionRun).coh = s.coh
      ∧ (s.selectionRun).sel.groupDue = s.sel.groupDue ∧ (s.selectionRun).sel.groupBudget = s.sel.groupBudget
      ∧ (s.selectionRun).sel.promptBudget = s.sel.promptBudget ∧ (s.selectionRun).sel.groupAllot = s.sel.groupAllot
      ∧ (s.selectionRun).sel.promptAllot = s.sel.promptAllot ∧ (s.selectionRun).ord = s.ord
      ∧ (s.selectionRun).mgd = s.mgd ∧ (s.selectionRun).mod = s.mod ∧ (s.selectionRun).resetN = s.resetN
      ∧ (s.selectionRun).pending = s.pending ∧ (∀ j, (s.selectionRun).station j = s.station j)
      ∧ (∀ j, (s.selectionRun).lanesOf j = s.lanesOf j) ∧ (∀ j m, (s.selectionRun).lane j m = s.lane j m)
      ∧ (∀ k, (s.selectionRun).cohort k = s.cohort k) ∧ (s.selectionRun).radioFree = s.radioFree
      ∧ (s.selectionRun).outFree = s.outFree := by
  unfold State.selectionRun
  split
  · split
    · simp
    · rename_i p h
      simp [pick_sel s h]
  · simp

@[simp] theorem countOrd_keeps (s : State) (f : OrdCounters → OrdCounters) :
    (s.countOrd f).cli = s.cli ∧ (s.countOrd f).rli = s.rli ∧ (s.countOrd f).stt = s.stt ∧ (s.countOrd f).fpl = s.fpl
      ∧ (s.countOrd f).rck = s.rck ∧ (s.countOrd f).coh = s.coh ∧ (s.countOrd f).sel = s.sel
      ∧ (s.countOrd f).ord.outstanding = s.ord.outstanding ∧ (s.countOrd f).ord.quarantine = s.ord.quarantine
      ∧ (s.countOrd f).ord.nextId = s.ord.nextId ∧ (s.countOrd f).ord.lossCount = s.ord.lossCount
      ∧ (s.countOrd f).ord.cancelPending = s.ord.cancelPending ∧ (s.countOrd f).mgd = s.mgd
      ∧ (s.countOrd f).mod = s.mod ∧ (s.countOrd f).resetN = s.resetN ∧ (s.countOrd f).pending = s.pending
      ∧ (∀ j, (s.countOrd f).station j = s.station j) ∧ (∀ j, (s.countOrd f).lanesOf j = s.lanesOf j)
      ∧ (∀ j m, (s.countOrd f).lane j m = s.lane j m) ∧ (∀ k, (s.countOrd f).cohort k = s.cohort k)
      ∧ (s.countOrd f).radioFree = s.radioFree ∧ (s.countOrd f).outFree = s.outFree := by
  unfold State.countOrd
  and_intros <;> intros <;> (try dsimp only) <;> (repeat' split)
    <;> first | (simp; done) | simp [State.station, State.lane, State.lanesOf, State.radioFree, State.outFree]

@[simp] theorem quarantineId_keeps (s : State) (i : OrderId) :
    (s.quarantineId i).cli = s.cli ∧ (s.quarantineId i).rli = s.rli ∧ (s.quarantineId i).stt = s.stt
      ∧ (s.quarantineId i).fpl = s.fpl ∧ (s.quarantineId i).rck = s.rck ∧ (s.quarantineId i).coh = s.coh
      ∧ (s.quarantineId i).sel = s.sel ∧ (s.quarantineId i).ord.outstanding = s.ord.outstanding
      ∧ (s.quarantineId i).ord.nextId = s.ord.nextId ∧ (s.quarantineId i).ord.lossCount = s.ord.lossCount
      ∧ (s.quarantineId i).ord.cancelPending = s.ord.cancelPending ∧ (s.quarantineId i).mgd = s.mgd
      ∧ (s.quarantineId i).mod = s.mod ∧ (s.quarantineId i).resetN = s.resetN ∧ (s.quarantineId i).pending = s.pending
      ∧ (∀ j, (s.quarantineId i).station j = s.station j) ∧ (∀ j, (s.quarantineId i).lanesOf j = s.lanesOf j)
      ∧ (∀ j m, (s.quarantineId i).lane j m = s.lane j m) ∧ (∀ k, (s.quarantineId i).cohort k = s.cohort k)
      ∧ (s.quarantineId i).radioFree = s.radioFree ∧ (s.quarantineId i).outFree = s.outFree := by
  unfold State.quarantineId
  and_intros <;> intros <;> (try dsimp only) <;> (repeat' split)
    <;> first | (simp; done) | simp [State.station, State.lane, State.lanesOf, State.radioFree, State.outFree]

@[simp] theorem removeOrder_keeps (s : State) (i : OrderId) :
    (s.removeOrder i).cli = s.cli ∧ (s.removeOrder i).rli = s.rli ∧ (s.removeOrder i).stt = s.stt
      ∧ (s.removeOrder i).fpl = s.fpl ∧ (s.removeOrder i).rck = s.rck ∧ (s.removeOrder i).coh = s.coh
      ∧ (s.removeOrder i).sel = s.sel ∧ (s.removeOrder i).ord.quarantine = s.ord.quarantine
      ∧ (s.removeOrder i).ord.nextId = s.ord.nextId ∧ (s.removeOrder i).ord.lossCount = s.ord.lossCount
      ∧ (s.removeOrder i).ord.cancelPending = s.ord.cancelPending ∧ (s.removeOrder i).ord.counters = s.ord.counters
      ∧ (s.removeOrder i).mgd = s.mgd ∧ (s.removeOrder i).mod = s.mod ∧ (s.removeOrder i).resetN = s.resetN
      ∧ (s.removeOrder i).pending = s.pending ∧ (∀ j, (s.removeOrder i).station j = s.station j)
      ∧ (∀ j, (s.removeOrder i).lanesOf j = s.lanesOf j) ∧ (∀ j m, (s.removeOrder i).lane j m = s.lane j m)
      ∧ (∀ k, (s.removeOrder i).cohort k = s.cohort k) ∧ (s.removeOrder i).radioFree = s.radioFree
      ∧ (s.removeOrder i).outFree = s.outFree := by
  unfold State.removeOrder
  and_intros <;> intros <;> (try dsimp only) <;> (repeat' split)
    <;> first | (simp; done) | simp [State.station, State.lane, State.lanesOf, State.radioFree, State.outFree]

@[simp] theorem chargeSelector_keeps (s : State) (k : Kind) (e : Nat) :
    (s.chargeSelector k e).cli = s.cli ∧ (s.chargeSelector k e).rli = s.rli ∧ (s.chargeSelector k e).stt = s.stt
      ∧ (s.chargeSelector k e).fpl = s.fpl ∧ (s.chargeSelector k e).rck.deviceTime = s.rck.deviceTime
      ∧ (s.chargeSelector k e).rck.timeRunning = s.rck.timeRunning
      ∧ (s.chargeSelector k e).rck.clocksRunning = s.rck.clocksRunning
      ∧ (s.chargeSelector k e).rck.round = s.rck.round ∧ (s.chargeSelector k e).rck.lastRoundAt = s.rck.lastRoundAt
      ∧ (s.chargeSelector k e).rck.nextRoundAt = s.rck.nextRoundAt
      ∧ (s.chargeSelector k e).rck.promptPeriod = s.rck.promptPeriod
      ∧ (s.chargeSelector k e).rck.nextPromptAt = s.rck.nextPromptAt
      ∧ (s.chargeSelector k e).rck.figures = s.rck.figures ∧ (s.chargeSelector k e).rck.postscaler = s.rck.postscaler
      ∧ (s.chargeSelector k e).rck.skipped = s.rck.skipped
      ∧ (s.chargeSelector k e).rck.reportsSent = s.rck.reportsSent
      ∧ (s.chargeSelector k e).rck.reportsSkipped = s.rck.reportsSkipped ∧ (s.chargeSelector k e).coh = s.coh
      ∧ (s.chargeSelector k e).sel.active = s.sel.active ∧ (s.chargeSelector k e).sel.prompt = s.sel.prompt
      ∧ (s.chargeSelector k e).sel.poll = s.sel.poll ∧ (s.chargeSelector k e).sel.groupAllot = s.sel.groupAllot
      ∧ (s.chargeSelector k e).sel.promptAllot = s.sel.promptAllot ∧ (s.chargeSelector k e).sel.choice = s.sel.choice
      ∧ (s.chargeSelector k e).ord = s.ord ∧ (s.chargeSelector k e).mgd = s.mgd ∧ (s.chargeSelector k e).mod = s.mod
      ∧ (s.chargeSelector k e).resetN = s.resetN ∧ (s.chargeSelector k e).pending = s.pending
      ∧ (∀ j, (s.chargeSelector k e).station j = s.station j) ∧ (∀ j, (s.chargeSelector k e).lanesOf j = s.lanesOf j)
      ∧ (∀ j m, (s.chargeSelector k e).lane j m = s.lane j m) ∧ (∀ m, (s.chargeSelector k e).cohort m = s.cohort m)
      ∧ (s.chargeSelector k e).radioFree = s.radioFree ∧ (s.chargeSelector k e).outFree = s.outFree := by
  unfold State.chargeSelector
  and_intros <;> intros <;> (try dsimp only) <;> (repeat' split)
    <;> first | (simp; done) | simp [State.station, State.lane, State.lanesOf, State.radioFree, State.outFree]

@[simp] theorem correctSelector_keeps (s : State) (o : Order) (d : Int) :
    (s.correctSelector o d).cli = s.cli ∧ (s.correctSelector o d).rli = s.rli ∧ (s.correctSelector o d).stt = s.stt
      ∧ (s.correctSelector o d).fpl = s.fpl ∧ (s.correctSelector o d).rck.deviceTime = s.rck.deviceTime
      ∧ (s.correctSelector o d).rck.timeRunning = s.rck.timeRunning
      ∧ (s.correctSelector o d).rck.clocksRunning = s.rck.clocksRunning
      ∧ (s.correctSelector o d).rck.round = s.rck.round ∧ (s.correctSelector o d).rck.lastRoundAt = s.rck.lastRoundAt
      ∧ (s.correctSelector o d).rck.nextRoundAt = s.rck.nextRoundAt
      ∧ (s.correctSelector o d).rck.promptPeriod = s.rck.promptPeriod
      ∧ (s.correctSelector o d).rck.nextPromptAt = s.rck.nextPromptAt
      ∧ (s.correctSelector o d).rck.figures = s.rck.figures
      ∧ (s.correctSelector o d).rck.postscaler = s.rck.postscaler
      ∧ (s.correctSelector o d).rck.skipped = s.rck.skipped
      ∧ (s.correctSelector o d).rck.reportsSent = s.rck.reportsSent
      ∧ (s.correctSelector o d).rck.reportsSkipped = s.rck.reportsSkipped ∧ (s.correctSelector o d).coh = s.coh
      ∧ (s.correctSelector o d).sel.active = s.sel.active ∧ (s.correctSelector o d).sel.prompt = s.sel.prompt
      ∧ (s.correctSelector o d).sel.poll = s.sel.poll ∧ (s.correctSelector o d).sel.groupAllot = s.sel.groupAllot
      ∧ (s.correctSelector o d).sel.promptAllot = s.sel.promptAllot
      ∧ (s.correctSelector o d).sel.choice = s.sel.choice ∧ (s.correctSelector o d).ord = s.ord
      ∧ (s.correctSelector o d).mgd = s.mgd ∧ (s.correctSelector o d).mod = s.mod
      ∧ (s.correctSelector o d).resetN = s.resetN ∧ (s.correctSelector o d).pending = s.pending
      ∧ (∀ j, (s.correctSelector o d).station j = s.station j)
      ∧ (∀ j, (s.correctSelector o d).lanesOf j = s.lanesOf j)
      ∧ (∀ j m, (s.correctSelector o d).lane j m = s.lane j m) ∧ (∀ k, (s.correctSelector o d).cohort k = s.cohort k)
      ∧ (s.correctSelector o d).radioFree = s.radioFree ∧ (s.correctSelector o d).outFree = s.outFree := by
  unfold State.correctSelector
  and_intros <;> intros <;> (try dsimp only) <;> (repeat' split)
    <;> first | (simp; done) | simp [State.station, State.lane, State.lanesOf, State.radioFree, State.outFree]

@[simp] theorem applyCorrection_keeps (s : State) (o : Order) (d : Int) :
    (s.applyCorrection o d).cli = s.cli ∧ (s.applyCorrection o d).rli = s.rli
      ∧ (s.applyCorrection o d).stt.linkNotes = s.stt.linkNotes
      ∧ (s.applyCorrection o d).stt.radioIgnored = s.stt.radioIgnored ∧ (s.applyCorrection o d).fpl = s.fpl
      ∧ (s.applyCorrection o d).rck.deviceTime = s.rck.deviceTime
      ∧ (s.applyCorrection o d).rck.timeRunning = s.rck.timeRunning
      ∧ (s.applyCorrection o d).rck.clocksRunning = s.rck.clocksRunning
      ∧ (s.applyCorrection o d).rck.round = s.rck.round ∧ (s.applyCorrection o d).rck.lastRoundAt = s.rck.lastRoundAt
      ∧ (s.applyCorrection o d).rck.nextRoundAt = s.rck.nextRoundAt
      ∧ (s.applyCorrection o d).rck.promptPeriod = s.rck.promptPeriod
      ∧ (s.applyCorrection o d).rck.nextPromptAt = s.rck.nextPromptAt
      ∧ (s.applyCorrection o d).rck.figures = s.rck.figures
      ∧ (s.applyCorrection o d).rck.postscaler = s.rck.postscaler
      ∧ (s.applyCorrection o d).rck.skipped = s.rck.skipped
      ∧ (s.applyCorrection o d).rck.reportsSent = s.rck.reportsSent
      ∧ (s.applyCorrection o d).rck.reportsSkipped = s.rck.reportsSkipped
      ∧ (s.applyCorrection o d).sel.active = s.sel.active ∧ (s.applyCorrection o d).sel.prompt = s.sel.prompt
      ∧ (s.applyCorrection o d).sel.poll = s.sel.poll ∧ (s.applyCorrection o d).sel.groupAllot = s.sel.groupAllot
      ∧ (s.applyCorrection o d).sel.promptAllot = s.sel.promptAllot
      ∧ (s.applyCorrection o d).sel.choice = s.sel.choice ∧ (s.applyCorrection o d).ord = s.ord
      ∧ (s.applyCorrection o d).mgd = s.mgd ∧ (s.applyCorrection o d).mod = s.mod
      ∧ (s.applyCorrection o d).resetN = s.resetN ∧ (s.applyCorrection o d).pending = s.pending
      ∧ (∀ j, (s.applyCorrection o d).lanesOf j = s.lanesOf j)
      ∧ (∀ j m, (s.applyCorrection o d).lane j m = s.lane j m) ∧ (s.applyCorrection o d).radioFree = s.radioFree
      ∧ (s.applyCorrection o d).outFree = s.outFree := by
  unfold State.applyCorrection
  and_intros <;> intros <;> (try dsimp only) <;> (repeat' split)
    <;> first | (simp; done) | simp [State.station, State.lane, State.lanesOf, State.radioFree, State.outFree]

@[simp] theorem issueOrder_keeps (s : State) (c : Choice) (fs : List Frame) :
    (s.issueOrder c fs).cli = s.cli ∧ (s.issueOrder c fs).rli.inbound = s.rli.inbound
      ∧ (s.issueOrder c fs).rli.arrival = s.rli.arrival ∧ (s.issueOrder c fs).rli.sending = s.rli.sending
      ∧ (s.issueOrder c fs).rli.rlTx = s.rli.rlTx ∧ (s.issueOrder c fs).rli.rlMalformed = s.rli.rlMalformed
      ∧ (s.issueOrder c fs).rli.rlOverrun = s.rli.rlOverrun
      ∧ (s.issueOrder c fs).stt.radioIgnored = s.stt.radioIgnored
      ∧ (s.issueOrder c fs).fpl.freeEntries = s.fpl.freeEntries
      ∧ (s.issueOrder c fs).fpl.returnList = s.fpl.returnList
      ∧ (s.issueOrder c fs).fpl.nextSequence = s.fpl.nextSequence
      ∧ (s.issueOrder c fs).fpl.framesAccepted = s.fpl.framesAccepted
      ∧ (s.issueOrder c fs).fpl.framesRefused = s.fpl.framesRefused
      ∧ (s.issueOrder c fs).fpl.framesRequeued = s.fpl.framesRequeued
      ∧ (s.issueOrder c fs).fpl.framesExpired = s.fpl.framesExpired
      ∧ (s.issueOrder c fs).fpl.tokenNotices = s.fpl.tokenNotices
      ∧ (s.issueOrder c fs).rck.deviceTime = s.rck.deviceTime
      ∧ (s.issueOrder c fs).rck.timeRunning = s.rck.timeRunning
      ∧ (s.issueOrder c fs).rck.clocksRunning = s.rck.clocksRunning ∧ (s.issueOrder c fs).rck.round = s.rck.round
      ∧ (s.issueOrder c fs).rck.lastRoundAt = s.rck.lastRoundAt
      ∧ (s.issueOrder c fs).rck.nextRoundAt = s.rck.nextRoundAt
      ∧ (s.issueOrder c fs).rck.promptPeriod = s.rck.promptPeriod
      ∧ (s.issueOrder c fs).rck.nextPromptAt = s.rck.nextPromptAt ∧ (s.issueOrder c fs).rck.figures = s.rck.figures
      ∧ (s.issueOrder c fs).rck.postscaler = s.rck.postscaler ∧ (s.issueOrder c fs).rck.skipped = s.rck.skipped
      ∧ (s.issueOrder c fs).rck.reportsSent = s.rck.reportsSent
      ∧ (s.issueOrder c fs).rck.reportsSkipped = s.rck.reportsSkipped
      ∧ (s.issueOrder c fs).sel.groupAllot = s.sel.groupAllot
      ∧ (s.issueOrder c fs).sel.promptAllot = s.sel.promptAllot ∧ (s.issueOrder c fs).sel.choice = s.sel.choice
      ∧ (s.issueOrder c fs).ord.quarantine = s.ord.quarantine ∧ (s.issueOrder c fs).ord.lossCount = s.ord.lossCount
      ∧ (s.issueOrder c fs).mgd = s.mgd ∧ (s.issueOrder c fs).mod = s.mod ∧ (s.issueOrder c fs).resetN = s.resetN
      ∧ (s.issueOrder c fs).pending = s.pending ∧ (s.issueOrder c fs).outFree = s.outFree := by
  unfold State.issueOrder
  and_intros <;> intros <;> (try dsimp only) <;> (repeat' split)
    <;> first | (simp; done) | simp [State.station, State.lane, State.lanesOf, State.radioFree, State.outFree]

@[simp] theorem emptyChoice_keeps (s : State) (c : Choice) :
    (s.emptyChoice c).cli = s.cli ∧ (s.emptyChoice c).rli.inbound = s.rli.inbound
      ∧ (s.emptyChoice c).rli.arrival = s.rli.arrival ∧ (s.emptyChoice c).rli.sending = s.rli.sending
      ∧ (s.emptyChoice c).rli.rlTx = s.rli.rlTx ∧ (s.emptyChoice c).rli.rlMalformed = s.rli.rlMalformed
      ∧ (s.emptyChoice c).rli.rlOverrun = s.rli.rlOverrun ∧ (s.emptyChoice c).stt.radioIgnored = s.stt.radioIgnored
      ∧ (s.emptyChoice c).fpl = s.fpl ∧ (s.emptyChoice c).rck = s.rck ∧ (s.emptyChoice c).coh = s.coh
      ∧ (s.emptyChoice c).sel = s.sel ∧ (s.emptyChoice c).ord.outstanding = s.ord.outstanding
      ∧ (s.emptyChoice c).ord.quarantine = s.ord.quarantine ∧ (s.emptyChoice c).ord.nextId = s.ord.nextId
      ∧ (s.emptyChoice c).ord.lossCount = s.ord.lossCount ∧ (s.emptyChoice c).mgd = s.mgd
      ∧ (s.emptyChoice c).mod = s.mod ∧ (s.emptyChoice c).resetN = s.resetN ∧ (s.emptyChoice c).pending = s.pending
      ∧ (∀ j, (s.emptyChoice c).station j = s.station j) ∧ (∀ j, (s.emptyChoice c).lanesOf j = s.lanesOf j)
      ∧ (∀ j m, (s.emptyChoice c).lane j m = s.lane j m) ∧ (∀ k, (s.emptyChoice c).cohort k = s.cohort k)
      ∧ (s.emptyChoice c).outFree = s.outFree := by
  unfold State.emptyChoice
  and_intros <;> intros <;> (try dsimp only) <;> (repeat' split)
    <;> first | (simp; done) | simp [State.station, State.lane, State.lanesOf, State.radioFree, State.outFree]

@[simp] theorem buildChoice_keeps (s : State) (c : Choice) :
    (s.buildChoice c).cli = s.cli ∧ (s.buildChoice c).rli.inbound = s.rli.inbound
      ∧ (s.buildChoice c).rli.arrival = s.rli.arrival ∧ (s.buildChoice c).rli.sending = s.rli.sending
      ∧ (s.buildChoice c).rli.rlTx = s.rli.rlTx ∧ (s.buildChoice c).rli.rlMalformed = s.rli.rlMalformed
      ∧ (s.buildChoice c).rli.rlOverrun = s.rli.rlOverrun ∧ (s.buildChoice c).stt.radioIgnored = s.stt.radioIgnored
      ∧ (s.buildChoice c).fpl.freeEntries = s.fpl.freeEntries ∧ (s.buildChoice c).fpl.returnList = s.fpl.returnList
      ∧ (s.buildChoice c).fpl.nextSequence = s.fpl.nextSequence
      ∧ (s.buildChoice c).fpl.framesAccepted = s.fpl.framesAccepted
      ∧ (s.buildChoice c).fpl.framesRefused = s.fpl.framesRefused
      ∧ (s.buildChoice c).fpl.framesRequeued = s.fpl.framesRequeued
      ∧ (s.buildChoice c).fpl.framesExpired = s.fpl.framesExpired
      ∧ (s.buildChoice c).fpl.tokenNotices = s.fpl.tokenNotices ∧ (s.buildChoice c).rck.deviceTime = s.rck.deviceTime
      ∧ (s.buildChoice c).rck.timeRunning = s.rck.timeRunning
      ∧ (s.buildChoice c).rck.clocksRunning = s.rck.clocksRunning ∧ (s.buildChoice c).rck.round = s.rck.round
      ∧ (s.buildChoice c).rck.lastRoundAt = s.rck.lastRoundAt ∧ (s.buildChoice c).rck.nextRoundAt = s.rck.nextRoundAt
      ∧ (s.buildChoice c).rck.promptPeriod = s.rck.promptPeriod
      ∧ (s.buildChoice c).rck.nextPromptAt = s.rck.nextPromptAt ∧ (s.buildChoice c).rck.figures = s.rck.figures
      ∧ (s.buildChoice c).rck.postscaler = s.rck.postscaler ∧ (s.buildChoice c).rck.skipped = s.rck.skipped
      ∧ (s.buildChoice c).rck.reportsSent = s.rck.reportsSent
      ∧ (s.buildChoice c).rck.reportsSkipped = s.rck.reportsSkipped
      ∧ (s.buildChoice c).sel.groupAllot = s.sel.groupAllot ∧ (s.buildChoice c).sel.promptAllot = s.sel.promptAllot
      ∧ (s.buildChoice c).sel.choice = s.sel.choice ∧ (s.buildChoice c).ord.quarantine = s.ord.quarantine
      ∧ (s.buildChoice c).ord.lossCount = s.ord.lossCount ∧ (s.buildChoice c).mgd = s.mgd
      ∧ (s.buildChoice c).mod = s.mod ∧ (s.buildChoice c).resetN = s.resetN ∧ (s.buildChoice c).pending = s.pending
      ∧ (s.buildChoice c).outFree = s.outFree := by
  unfold State.buildChoice
  and_intros <;> intros <;> (try dsimp only) <;> (repeat' split)
    <;> first | (simp; done) | simp [State.station, State.lane, State.lanesOf, State.radioFree, State.outFree]

@[simp] theorem buildOrder_keeps (s : State) :
    (s.buildOrder).cli = s.cli ∧ (s.buildOrder).rli.inbound = s.rli.inbound
      ∧ (s.buildOrder).rli.arrival = s.rli.arrival ∧ (s.buildOrder).rli.sending = s.rli.sending
      ∧ (s.buildOrder).rli.rlTx = s.rli.rlTx ∧ (s.buildOrder).rli.rlMalformed = s.rli.rlMalformed
      ∧ (s.buildOrder).rli.rlOverrun = s.rli.rlOverrun ∧ (s.buildOrder).stt.radioIgnored = s.stt.radioIgnored
      ∧ (s.buildOrder).fpl.freeEntries = s.fpl.freeEntries ∧ (s.buildOrder).fpl.returnList = s.fpl.returnList
      ∧ (s.buildOrder).fpl.nextSequence = s.fpl.nextSequence
      ∧ (s.buildOrder).fpl.framesAccepted = s.fpl.framesAccepted
      ∧ (s.buildOrder).fpl.framesRefused = s.fpl.framesRefused
      ∧ (s.buildOrder).fpl.framesRequeued = s.fpl.framesRequeued
      ∧ (s.buildOrder).fpl.framesExpired = s.fpl.framesExpired ∧ (s.buildOrder).fpl.tokenNotices = s.fpl.tokenNotices
      ∧ (s.buildOrder).rck.deviceTime = s.rck.deviceTime ∧ (s.buildOrder).rck.timeRunning = s.rck.timeRunning
      ∧ (s.buildOrder).rck.clocksRunning = s.rck.clocksRunning ∧ (s.buildOrder).rck.round = s.rck.round
      ∧ (s.buildOrder).rck.lastRoundAt = s.rck.lastRoundAt ∧ (s.buildOrder).rck.nextRoundAt = s.rck.nextRoundAt
      ∧ (s.buildOrder).rck.promptPeriod = s.rck.promptPeriod ∧ (s.buildOrder).rck.nextPromptAt = s.rck.nextPromptAt
      ∧ (s.buildOrder).rck.figures = s.rck.figures ∧ (s.buildOrder).rck.postscaler = s.rck.postscaler
      ∧ (s.buildOrder).rck.skipped = s.rck.skipped ∧ (s.buildOrder).rck.reportsSent = s.rck.reportsSent
      ∧ (s.buildOrder).rck.reportsSkipped = s.rck.reportsSkipped ∧ (s.buildOrder).sel.groupAllot = s.sel.groupAllot
      ∧ (s.buildOrder).sel.promptAllot = s.sel.promptAllot ∧ (s.buildOrder).ord.quarantine = s.ord.quarantine
      ∧ (s.buildOrder).ord.lossCount = s.ord.lossCount ∧ (s.buildOrder).mgd = s.mgd ∧ (s.buildOrder).mod = s.mod
      ∧ (s.buildOrder).resetN = s.resetN ∧ (s.buildOrder).pending = s.pending ∧ (s.buildOrder).outFree = s.outFree := by
  unfold State.buildOrder
  and_intros <;> intros <;> (try dsimp only) <;> (repeat' split)
    <;> first | (simp; done) | simp [State.station, State.lane, State.lanesOf, State.radioFree, State.outFree]

@[simp] theorem buildOrders_keeps (n : Nat) (s : State) :
    (State.buildOrders n s).cli = s.cli ∧ (State.buildOrders n s).rli.inbound = s.rli.inbound
      ∧ (State.buildOrders n s).rli.arrival = s.rli.arrival ∧ (State.buildOrders n s).rli.sending = s.rli.sending
      ∧ (State.buildOrders n s).rli.rlTx = s.rli.rlTx ∧ (State.buildOrders n s).rli.rlMalformed = s.rli.rlMalformed
      ∧ (State.buildOrders n s).rli.rlOverrun = s.rli.rlOverrun ∧ (State.buildOrders n s).stt.radioIgnored = s.stt.radioIgnored
      ∧ (State.buildOrders n s).fpl.freeEntries = s.fpl.freeEntries ∧ (State.buildOrders n s).fpl.returnList = s.fpl.returnList
      ∧ (State.buildOrders n s).fpl.nextSequence = s.fpl.nextSequence
      ∧ (State.buildOrders n s).fpl.framesAccepted = s.fpl.framesAccepted
      ∧ (State.buildOrders n s).fpl.framesRefused = s.fpl.framesRefused
      ∧ (State.buildOrders n s).fpl.framesRequeued = s.fpl.framesRequeued
      ∧ (State.buildOrders n s).fpl.framesExpired = s.fpl.framesExpired
      ∧ (State.buildOrders n s).fpl.tokenNotices = s.fpl.tokenNotices ∧ (State.buildOrders n s).rck.deviceTime = s.rck.deviceTime
      ∧ (State.buildOrders n s).rck.timeRunning = s.rck.timeRunning
      ∧ (State.buildOrders n s).rck.clocksRunning = s.rck.clocksRunning ∧ (State.buildOrders n s).rck.round = s.rck.round
      ∧ (State.buildOrders n s).rck.lastRoundAt = s.rck.lastRoundAt ∧ (State.buildOrders n s).rck.nextRoundAt = s.rck.nextRoundAt
      ∧ (State.buildOrders n s).rck.promptPeriod = s.rck.promptPeriod
      ∧ (State.buildOrders n s).rck.nextPromptAt = s.rck.nextPromptAt ∧ (State.buildOrders n s).rck.figures = s.rck.figures
      ∧ (State.buildOrders n s).rck.postscaler = s.rck.postscaler ∧ (State.buildOrders n s).rck.skipped = s.rck.skipped
      ∧ (State.buildOrders n s).rck.reportsSent = s.rck.reportsSent
      ∧ (State.buildOrders n s).rck.reportsSkipped = s.rck.reportsSkipped
      ∧ (State.buildOrders n s).sel.groupAllot = s.sel.groupAllot ∧ (State.buildOrders n s).sel.promptAllot = s.sel.promptAllot
      ∧ (State.buildOrders n s).ord.quarantine = s.ord.quarantine ∧ (State.buildOrders n s).ord.lossCount = s.ord.lossCount
      ∧ (State.buildOrders n s).mgd = s.mgd ∧ (State.buildOrders n s).mod = s.mod ∧ (State.buildOrders n s).resetN = s.resetN
      ∧ (State.buildOrders n s).pending = s.pending ∧ (State.buildOrders n s).outFree = s.outFree := by
  induction n generalizing s with
  | zero => simp [State.buildOrders]
  | succ n ih => unfold State.buildOrders; split <;> simp [ih]

@[simp] theorem settle_keeps (s : State) :
    (s.settle).cli = s.cli ∧ (s.settle).rli.inbound = s.rli.inbound ∧ (s.settle).rli.arrival = s.rli.arrival
      ∧ (s.settle).rli.sending = s.rli.sending ∧ (s.settle).rli.rlTx = s.rli.rlTx
      ∧ (s.settle).rli.rlMalformed = s.rli.rlMalformed ∧ (s.settle).rli.rlOverrun = s.rli.rlOverrun
      ∧ (s.settle).stt.radioIgnored = s.stt.radioIgnored ∧ (s.settle).fpl.freeEntries = s.fpl.freeEntries
      ∧ (s.settle).fpl.returnList = s.fpl.returnList ∧ (s.settle).fpl.nextSequence = s.fpl.nextSequence
      ∧ (s.settle).fpl.framesAccepted = s.fpl.framesAccepted ∧ (s.settle).fpl.framesRefused = s.fpl.framesRefused
      ∧ (s.settle).fpl.framesRequeued = s.fpl.framesRequeued ∧ (s.settle).fpl.framesExpired = s.fpl.framesExpired
      ∧ (s.settle).fpl.tokenNotices = s.fpl.tokenNotices ∧ (s.settle).rck.deviceTime = s.rck.deviceTime
      ∧ (s.settle).rck.timeRunning = s.rck.timeRunning ∧ (s.settle).rck.clocksRunning = s.rck.clocksRunning
      ∧ (s.settle).rck.round = s.rck.round ∧ (s.settle).rck.lastRoundAt = s.rck.lastRoundAt
      ∧ (s.settle).rck.nextRoundAt = s.rck.nextRoundAt ∧ (s.settle).rck.promptPeriod = s.rck.promptPeriod
      ∧ (s.settle).rck.nextPromptAt = s.rck.nextPromptAt ∧ (s.settle).rck.figures = s.rck.figures
      ∧ (s.settle).rck.postscaler = s.rck.postscaler ∧ (s.settle).rck.skipped = s.rck.skipped
      ∧ (s.settle).rck.reportsSent = s.rck.reportsSent ∧ (s.settle).rck.reportsSkipped = s.rck.reportsSkipped
      ∧ (s.settle).sel.groupAllot = s.sel.groupAllot ∧ (s.settle).sel.promptAllot = s.sel.promptAllot
      ∧ (s.settle).ord.quarantine = s.ord.quarantine ∧ (s.settle).ord.lossCount = s.ord.lossCount
      ∧ (s.settle).mgd = s.mgd ∧ (s.settle).mod = s.mod ∧ (s.settle).resetN = s.resetN
      ∧ (s.settle).pending = s.pending ∧ (s.settle).outFree = s.outFree := by
  unfold State.settle
  and_intros <;> intros <;> (try dsimp only) <;> (repeat' split)
    <;> first | (simp; done) | simp [State.station, State.lane, State.lanesOf, State.radioFree, State.outFree]

@[simp] theorem concludeFrames_keeps (s : State) (o : Order) (x : FrameResult) (fs : List Frame) :
    (s.concludeFrames o x fs).cli = s.cli ∧ (s.concludeFrames o x fs).rli = s.rli
      ∧ (s.concludeFrames o x fs).stt.linkNotes = s.stt.linkNotes
      ∧ (s.concludeFrames o x fs).stt.radioIgnored = s.stt.radioIgnored
      ∧ (s.concludeFrames o x fs).fpl.freeEntries = s.fpl.freeEntries
      ∧ (s.concludeFrames o x fs).fpl.nextSequence = s.fpl.nextSequence
      ∧ (s.concludeFrames o x fs).fpl.framesAccepted = s.fpl.framesAccepted
      ∧ (s.concludeFrames o x fs).fpl.framesRefused = s.fpl.framesRefused
      ∧ (s.concludeFrames o x fs).fpl.framesExpired = s.fpl.framesExpired
      ∧ (s.concludeFrames o x fs).fpl.tokenNotices = s.fpl.tokenNotices ∧ (s.concludeFrames o x fs).rck = s.rck
      ∧ (s.concludeFrames o x fs).coh = s.coh ∧ (s.concludeFrames o x fs).sel.poll = s.sel.poll
      ∧ (s.concludeFrames o x fs).sel.groupBudget = s.sel.groupBudget
      ∧ (s.concludeFrames o x fs).sel.promptBudget = s.sel.promptBudget
      ∧ (s.concludeFrames o x fs).sel.groupAllot = s.sel.groupAllot
      ∧ (s.concludeFrames o x fs).sel.promptAllot = s.sel.promptAllot
      ∧ (s.concludeFrames o x fs).sel.choice = s.sel.choice ∧ (s.concludeFrames o x fs).ord = s.ord
      ∧ (s.concludeFrames o x fs).mgd = s.mgd ∧ (s.concludeFrames o x fs).mod = s.mod
      ∧ (s.concludeFrames o x fs).resetN = s.resetN ∧ (s.concludeFrames o x fs).pending = s.pending
      ∧ (∀ k, (s.concludeFrames o x fs).cohort k = s.cohort k) ∧ (s.concludeFrames o x fs).radioFree = s.radioFree
      ∧ (s.concludeFrames o x fs).outFree = s.outFree := by
  unfold State.concludeFrames
  and_intros <;> intros <;> (try dsimp only) <;> (repeat' split)
    <;> first | (simp; done) | simp [State.station, State.lane, State.lanesOf, State.radioFree, State.outFree]

@[simp] theorem acceptOutcome_keeps (s : State) (o : Order) (x : Outcome) :
    (s.acceptOutcome o x).cli = s.cli ∧ (s.acceptOutcome o x).rli.inbound = s.rli.inbound
      ∧ (s.acceptOutcome o x).rli.arrival = s.rli.arrival ∧ (s.acceptOutcome o x).rli.sending = s.rli.sending
      ∧ (s.acceptOutcome o x).rli.rlTx = s.rli.rlTx ∧ (s.acceptOutcome o x).rli.rlMalformed = s.rli.rlMalformed
      ∧ (s.acceptOutcome o x).rli.rlOverrun = s.rli.rlOverrun
      ∧ (s.acceptOutcome o x).stt.radioIgnored = s.stt.radioIgnored
      ∧ (s.acceptOutcome o x).fpl.freeEntries = s.fpl.freeEntries
      ∧ (s.acceptOutcome o x).fpl.nextSequence = s.fpl.nextSequence
      ∧ (s.acceptOutcome o x).fpl.framesAccepted = s.fpl.framesAccepted
      ∧ (s.acceptOutcome o x).fpl.framesRefused = s.fpl.framesRefused
      ∧ (s.acceptOutcome o x).fpl.framesExpired = s.fpl.framesExpired
      ∧ (s.acceptOutcome o x).fpl.tokenNotices = s.fpl.tokenNotices
      ∧ (s.acceptOutcome o x).rck.deviceTime = s.rck.deviceTime
      ∧ (s.acceptOutcome o x).rck.timeRunning = s.rck.timeRunning
      ∧ (s.acceptOutcome o x).rck.clocksRunning = s.rck.clocksRunning ∧ (s.acceptOutcome o x).rck.round = s.rck.round
      ∧ (s.acceptOutcome o x).rck.lastRoundAt = s.rck.lastRoundAt
      ∧ (s.acceptOutcome o x).rck.nextRoundAt = s.rck.nextRoundAt
      ∧ (s.acceptOutcome o x).rck.promptPeriod = s.rck.promptPeriod
      ∧ (s.acceptOutcome o x).rck.nextPromptAt = s.rck.nextPromptAt
      ∧ (s.acceptOutcome o x).rck.figures = s.rck.figures ∧ (s.acceptOutcome o x).rck.postscaler = s.rck.postscaler
      ∧ (s.acceptOutcome o x).rck.skipped = s.rck.skipped ∧ (s.acceptOutcome o x).rck.reportsSent = s.rck.reportsSent
      ∧ (s.acceptOutcome o x).rck.reportsSkipped = s.rck.reportsSkipped ∧ (s.acceptOutcome o x).sel.poll = s.sel.poll
      ∧ (s.acceptOutcome o x).sel.groupAllot = s.sel.groupAllot
      ∧ (s.acceptOutcome o x).sel.promptAllot = s.sel.promptAllot ∧ (s.acceptOutcome o x).sel.choice = s.sel.choice
      ∧ (s.acceptOutcome o x).ord.quarantine = s.ord.quarantine ∧ (s.acceptOutcome o x).ord.nextId = s.ord.nextId
      ∧ (s.acceptOutcome o x).mgd = s.mgd ∧ (s.acceptOutcome o x).mod = s.mod
      ∧ (s.acceptOutcome o x).resetN = s.resetN ∧ (s.acceptOutcome o x).pending = s.pending
      ∧ (s.acceptOutcome o x).outFree = s.outFree := by
  unfold State.acceptOutcome
  and_intros <;> intros <;> (try dsimp only) <;> (repeat' split)
    <;> first | (simp; done) | simp [State.station, State.lane, State.lanesOf, State.radioFree, State.outFree]

@[simp] theorem lateOutcome_keeps (s : State) (i : OrderId) :
    (s.lateOutcome i).cli = s.cli ∧ (s.lateOutcome i).rli = s.rli ∧ (s.lateOutcome i).stt = s.stt
      ∧ (s.lateOutcome i).fpl = s.fpl ∧ (s.lateOutcome i).rck = s.rck ∧ (s.lateOutcome i).coh = s.coh
      ∧ (s.lateOutcome i).sel = s.sel ∧ (s.lateOutcome i).ord.outstanding = s.ord.outstanding
      ∧ (s.lateOutcome i).ord.nextId = s.ord.nextId ∧ (s.lateOutcome i).ord.lossCount = s.ord.lossCount
      ∧ (s.lateOutcome i).ord.cancelPending = s.ord.cancelPending ∧ (s.lateOutcome i).mgd = s.mgd
      ∧ (s.lateOutcome i).mod = s.mod ∧ (s.lateOutcome i).resetN = s.resetN ∧ (s.lateOutcome i).pending = s.pending
      ∧ (∀ j, (s.lateOutcome i).station j = s.station j) ∧ (∀ j, (s.lateOutcome i).lanesOf j = s.lanesOf j)
      ∧ (∀ j m, (s.lateOutcome i).lane j m = s.lane j m) ∧ (∀ k, (s.lateOutcome i).cohort k = s.cohort k)
      ∧ (s.lateOutcome i).radioFree = s.radioFree ∧ (s.lateOutcome i).outFree = s.outFree := by
  unfold State.lateOutcome
  and_intros <;> intros <;> (try dsimp only) <;> (repeat' split)
    <;> first | (simp; done) | simp [State.station, State.lane, State.lanesOf, State.radioFree, State.outFree]

@[simp] theorem unmatchedOutcome_keeps (s : State) :
    (s.unmatchedOutcome).cli = s.cli ∧ (s.unmatchedOutcome).rli = s.rli ∧ (s.unmatchedOutcome).stt = s.stt
      ∧ (s.unmatchedOutcome).fpl = s.fpl ∧ (s.unmatchedOutcome).rck = s.rck ∧ (s.unmatchedOutcome).coh = s.coh
      ∧ (s.unmatchedOutcome).sel = s.sel ∧ (s.unmatchedOutcome).ord.outstanding = s.ord.outstanding
      ∧ (s.unmatchedOutcome).ord.quarantine = s.ord.quarantine ∧ (s.unmatchedOutcome).ord.nextId = s.ord.nextId
      ∧ (s.unmatchedOutcome).ord.lossCount = s.ord.lossCount
      ∧ (s.unmatchedOutcome).ord.cancelPending = s.ord.cancelPending ∧ (s.unmatchedOutcome).mgd = s.mgd
      ∧ (s.unmatchedOutcome).mod = s.mod ∧ (s.unmatchedOutcome).resetN = s.resetN
      ∧ (s.unmatchedOutcome).pending = s.pending ∧ (∀ j, (s.unmatchedOutcome).station j = s.station j)
      ∧ (∀ j, (s.unmatchedOutcome).lanesOf j = s.lanesOf j) ∧ (∀ j m, (s.unmatchedOutcome).lane j m = s.lane j m)
      ∧ (∀ k, (s.unmatchedOutcome).cohort k = s.cohort k) ∧ (s.unmatchedOutcome).radioFree = s.radioFree
      ∧ (s.unmatchedOutcome).outFree = s.outFree := by
  unfold State.unmatchedOutcome
  and_intros <;> intros <;> (try dsimp only) <;> (repeat' split)
    <;> first | (simp; done) | simp [State.station, State.lane, State.lanesOf, State.radioFree, State.outFree]

@[simp] theorem loseOrder_keeps (s : State) (o : Order) :
    (s.loseOrder o).cli = s.cli ∧ (s.loseOrder o).rli.inbound = s.rli.inbound
      ∧ (s.loseOrder o).rli.arrival = s.rli.arrival ∧ (s.loseOrder o).rli.sending = s.rli.sending
      ∧ (s.loseOrder o).rli.rlTx = s.rli.rlTx ∧ (s.loseOrder o).rli.rlMalformed = s.rli.rlMalformed
      ∧ (s.loseOrder o).rli.rlOverrun = s.rli.rlOverrun ∧ (s.loseOrder o).stt.radioIgnored = s.stt.radioIgnored
      ∧ (s.loseOrder o).fpl.freeEntries = s.fpl.freeEntries ∧ (s.loseOrder o).fpl.nextSequence = s.fpl.nextSequence
      ∧ (s.loseOrder o).fpl.framesAccepted = s.fpl.framesAccepted
      ∧ (s.loseOrder o).fpl.framesRefused = s.fpl.framesRefused
      ∧ (s.loseOrder o).fpl.framesExpired = s.fpl.framesExpired
      ∧ (s.loseOrder o).fpl.tokenNotices = s.fpl.tokenNotices ∧ (s.loseOrder o).rck = s.rck
      ∧ (s.loseOrder o).coh = s.coh ∧ (s.loseOrder o).sel.poll = s.sel.poll
      ∧ (s.loseOrder o).sel.groupBudget = s.sel.groupBudget ∧ (s.loseOrder o).sel.promptBudget = s.sel.promptBudget
      ∧ (s.loseOrder o).sel.groupAllot = s.sel.groupAllot ∧ (s.loseOrder o).sel.promptAllot = s.sel.promptAllot
      ∧ (s.loseOrder o).sel.choice = s.sel.choice ∧ (s.loseOrder o).ord.nextId = s.ord.nextId
      ∧ (s.loseOrder o).mgd = s.mgd ∧ (s.loseOrder o).mod = s.mod ∧ (s.loseOrder o).resetN = s.resetN
      ∧ (s.loseOrder o).pending = s.pending ∧ (∀ k, (s.loseOrder o).cohort k = s.cohort k)
      ∧ (s.loseOrder o).outFree = s.outFree := by
  unfold State.loseOrder
  and_intros <;> intros <;> (try dsimp only) <;> (repeat' split)
    <;> first | (simp; done) | simp [State.station, State.lane, State.lanesOf, State.radioFree, State.outFree]

@[simp] theorem cancelOrder_keeps (s : State) (o : Order) :
    (s.cancelOrder o).cli = s.cli ∧ (s.cancelOrder o).rli.inbound = s.rli.inbound
      ∧ (s.cancelOrder o).rli.arrival = s.rli.arrival ∧ (s.cancelOrder o).rli.sending = s.rli.sending
      ∧ (s.cancelOrder o).rli.rlTx = s.rli.rlTx ∧ (s.cancelOrder o).rli.rlMalformed = s.rli.rlMalformed
      ∧ (s.cancelOrder o).rli.rlOverrun = s.rli.rlOverrun ∧ (s.cancelOrder o).stt.radioIgnored = s.stt.radioIgnored
      ∧ (s.cancelOrder o).fpl.freeEntries = s.fpl.freeEntries ∧ (s.cancelOrder o).fpl.lanes = s.fpl.lanes
      ∧ (s.cancelOrder o).fpl.expiry = s.fpl.expiry ∧ (s.cancelOrder o).fpl.nextSequence = s.fpl.nextSequence
      ∧ (s.cancelOrder o).fpl.framesAccepted = s.fpl.framesAccepted
      ∧ (s.cancelOrder o).fpl.framesRefused = s.fpl.framesRefused
      ∧ (s.cancelOrder o).fpl.framesRequeued = s.fpl.framesRequeued
      ∧ (s.cancelOrder o).fpl.framesExpired = s.fpl.framesExpired
      ∧ (s.cancelOrder o).fpl.tokenNotices = s.fpl.tokenNotices ∧ (s.cancelOrder o).rck = s.rck
      ∧ (s.cancelOrder o).coh = s.coh ∧ (s.cancelOrder o).sel = s.sel ∧ (s.cancelOrder o).ord.nextId = s.ord.nextId
      ∧ (s.cancelOrder o).ord.lossCount = s.ord.lossCount ∧ (s.cancelOrder o).mgd = s.mgd
      ∧ (s.cancelOrder o).mod = s.mod ∧ (s.cancelOrder o).resetN = s.resetN ∧ (s.cancelOrder o).pending = s.pending
      ∧ (∀ j, (s.cancelOrder o).lanesOf j = s.lanesOf j) ∧ (∀ j m, (s.cancelOrder o).lane j m = s.lane j m)
      ∧ (∀ k, (s.cancelOrder o).cohort k = s.cohort k) ∧ (s.cancelOrder o).outFree = s.outFree := by
  unfold State.cancelOrder
  and_intros <;> intros <;> (try dsimp only) <;> (repeat' split)
    <;> first | (simp; done) | simp [State.station, State.lane, State.lanesOf, State.radioFree, State.outFree]

@[simp] theorem cancelOrders_keeps (s : State) :
    (s.cancelOrders).cli = s.cli ∧ (s.cancelOrders).rli.inbound = s.rli.inbound
      ∧ (s.cancelOrders).rli.arrival = s.rli.arrival ∧ (s.cancelOrders).rli.sending = s.rli.sending
      ∧ (s.cancelOrders).rli.rlTx = s.rli.rlTx ∧ (s.cancelOrders).rli.rlMalformed = s.rli.rlMalformed
      ∧ (s.cancelOrders).rli.rlOverrun = s.rli.rlOverrun ∧ (s.cancelOrders).stt.radioIgnored = s.stt.radioIgnored
      ∧ (s.cancelOrders).fpl.freeEntries = s.fpl.freeEntries ∧ (s.cancelOrders).fpl.lanes = s.fpl.lanes
      ∧ (s.cancelOrders).fpl.expiry = s.fpl.expiry ∧ (s.cancelOrders).fpl.nextSequence = s.fpl.nextSequence
      ∧ (s.cancelOrders).fpl.framesAccepted = s.fpl.framesAccepted
      ∧ (s.cancelOrders).fpl.framesRefused = s.fpl.framesRefused
      ∧ (s.cancelOrders).fpl.framesRequeued = s.fpl.framesRequeued
      ∧ (s.cancelOrders).fpl.framesExpired = s.fpl.framesExpired
      ∧ (s.cancelOrders).fpl.tokenNotices = s.fpl.tokenNotices ∧ (s.cancelOrders).rck = s.rck
      ∧ (s.cancelOrders).coh = s.coh ∧ (s.cancelOrders).sel = s.sel ∧ (s.cancelOrders).ord.nextId = s.ord.nextId
      ∧ (s.cancelOrders).ord.lossCount = s.ord.lossCount ∧ (s.cancelOrders).mgd = s.mgd ∧ (s.cancelOrders).mod = s.mod
      ∧ (s.cancelOrders).resetN = s.resetN ∧ (s.cancelOrders).pending = s.pending
      ∧ (∀ j, (s.cancelOrders).lanesOf j = s.lanesOf j) ∧ (∀ j m, (s.cancelOrders).lane j m = s.lane j m)
      ∧ (∀ k, (s.cancelOrders).cohort k = s.cohort k) ∧ (s.cancelOrders).outFree = s.outFree := by
  unfold State.cancelOrders
  generalize s.ord.outstanding = os
  induction os generalizing s with
  | nil => simp
  | cons o os ih => simpa only [List.foldl_cons, cancelOrder_keeps] using ih (s.cancelOrder o)

@[simp] theorem softResetOrders_keeps (s : State) :
    (s.softResetOrders).cli = s.cli ∧ (s.softResetOrders).rli.inbound = s.rli.inbound
      ∧ (s.softResetOrders).rli.arrival = s.rli.arrival ∧ (s.softResetOrders).rli.sending = s.rli.sending
      ∧ (s.softResetOrders).rli.rlTx = s.rli.rlTx ∧ (s.softResetOrders).rli.rlMalformed = s.rli.rlMalformed
      ∧ (s.softResetOrders).rli.rlOverrun = s.rli.rlOverrun
      ∧ (s.softResetOrders).stt.radioIgnored = s.stt.radioIgnored
      ∧ (s.softResetOrders).fpl.freeEntries = s.fpl.freeEntries ∧ (s.softResetOrders).fpl.lanes = s.fpl.lanes
      ∧ (s.softResetOrders).fpl.expiry = s.fpl.expiry ∧ (s.softResetOrders).fpl.nextSequence = s.fpl.nextSequence
      ∧ (s.softResetOrders).fpl.framesAccepted = s.fpl.framesAccepted
      ∧ (s.softResetOrders).fpl.framesRefused = s.fpl.framesRefused
      ∧ (s.softResetOrders).fpl.framesRequeued = s.fpl.framesRequeued
      ∧ (s.softResetOrders).fpl.framesExpired = s.fpl.framesExpired
      ∧ (s.softResetOrders).fpl.tokenNotices = s.fpl.tokenNotices ∧ (s.softResetOrders).rck = s.rck
      ∧ (s.softResetOrders).coh = s.coh ∧ (s.softResetOrders).sel = s.sel
      ∧ (s.softResetOrders).ord.nextId = s.ord.nextId ∧ (s.softResetOrders).mgd = s.mgd
      ∧ (s.softResetOrders).mod = s.mod ∧ (s.softResetOrders).resetN = s.resetN
      ∧ (s.softResetOrders).pending = s.pending ∧ (∀ j, (s.softResetOrders).lanesOf j = s.lanesOf j)
      ∧ (∀ j m, (s.softResetOrders).lane j m = s.lane j m) ∧ (∀ k, (s.softResetOrders).cohort k = s.cohort k)
      ∧ (s.softResetOrders).outFree = s.outFree := by
  unfold State.softResetOrders
  and_intros <;> intros <;> (try dsimp only) <;> (repeat' split)
    <;> first | (simp; done) | simp [State.station, State.lane, State.lanesOf, State.radioFree, State.outFree]

/-! ## Modes and rounds -/

@[simp] theorem setCauses_keeps (s : State) (q : QuietCauses) :
    (s.setCauses q).cli = s.cli ∧ (s.setCauses q).rli = s.rli ∧ (s.setCauses q).stt = s.stt
      ∧ (s.setCauses q).fpl = s.fpl ∧ (s.setCauses q).rck = s.rck ∧ (s.setCauses q).coh = s.coh
      ∧ (s.setCauses q).sel.groupDue = s.sel.groupDue ∧ (s.setCauses q).sel.groupBudget = s.sel.groupBudget
      ∧ (s.setCauses q).sel.promptBudget = s.sel.promptBudget ∧ (s.setCauses q).sel.groupAllot = s.sel.groupAllot
      ∧ (s.setCauses q).sel.promptAllot = s.sel.promptAllot ∧ (s.setCauses q).ord = s.ord
      ∧ (s.setCauses q).mgd = s.mgd ∧ (s.setCauses q).mod.config = s.mod.config
      ∧ (s.setCauses q).mod.configValid = s.mod.configValid ∧ (s.setCauses q).mod.alertsSent = s.mod.alertsSent
      ∧ (s.setCauses q).resetN = s.resetN ∧ (s.setCauses q).pending = s.pending
      ∧ (∀ j, (s.setCauses q).station j = s.station j) ∧ (∀ j, (s.setCauses q).lanesOf j = s.lanesOf j)
      ∧ (∀ j m, (s.setCauses q).lane j m = s.lane j m) ∧ (∀ k, (s.setCauses q).cohort k = s.cohort k)
      ∧ (s.setCauses q).radioFree = s.radioFree ∧ (s.setCauses q).outFree = s.outFree := by
  unfold State.setCauses
  and_intros <;> intros <;> (try dsimp only) <;> (repeat' split)
    <;> first | (simp; done) | simp [State.station, State.lane, State.lanesOf, State.radioFree, State.outFree]

@[simp] theorem raiseLink_keeps (s : State) :
    (s.raiseLink).cli = s.cli ∧ (s.raiseLink).rli = s.rli ∧ (s.raiseLink).stt = s.stt ∧ (s.raiseLink).fpl = s.fpl
      ∧ (s.raiseLink).rck = s.rck ∧ (s.raiseLink).coh = s.coh ∧ (s.raiseLink).sel.groupDue = s.sel.groupDue
      ∧ (s.raiseLink).sel.groupBudget = s.sel.groupBudget ∧ (s.raiseLink).sel.promptBudget = s.sel.promptBudget
      ∧ (s.raiseLink).sel.groupAllot = s.sel.groupAllot ∧ (s.raiseLink).sel.promptAllot = s.sel.promptAllot
      ∧ (s.raiseLink).ord = s.ord ∧ (s.raiseLink).mgd.freeNow = s.mgd.freeNow
      ∧ (s.raiseLink).mgd.blanking = s.mgd.blanking ∧ (s.raiseLink).mgd.capture = s.mgd.capture
      ∧ (s.raiseLink).mgd.mediumAlerts = s.mgd.mediumAlerts ∧ (s.raiseLink).mgd.mediumReports = s.mgd.mediumReports
      ∧ (s.raiseLink).mgd.reportsBlanked = s.mgd.reportsBlanked
      ∧ (s.raiseLink).mgd.mediumIgnored = s.mgd.mediumIgnored ∧ (s.raiseLink).mod.config = s.mod.config
      ∧ (s.raiseLink).mod.configValid = s.mod.configValid ∧ (s.raiseLink).mod.alertsSent = s.mod.alertsSent
      ∧ (s.raiseLink).resetN = s.resetN ∧ (s.raiseLink).pending = s.pending
      ∧ (∀ j, (s.raiseLink).station j = s.station j) ∧ (∀ j, (s.raiseLink).lanesOf j = s.lanesOf j)
      ∧ (∀ j m, (s.raiseLink).lane j m = s.lane j m) ∧ (∀ k, (s.raiseLink).cohort k = s.cohort k)
      ∧ (s.raiseLink).radioFree = s.radioFree ∧ (s.raiseLink).outFree = s.outFree := by
  unfold State.raiseLink
  and_intros <;> intros <;> (try dsimp only) <;> (repeat' split)
    <;> first | (simp; done) | simp [State.station, State.lane, State.lanesOf, State.radioFree, State.outFree]

@[simp] theorem requestLink_keeps (s : State) :
    (s.requestLink).cli = s.cli ∧ (s.requestLink).rli = s.rli ∧ (s.requestLink).stt = s.stt
      ∧ (s.requestLink).fpl = s.fpl ∧ (s.requestLink).rck = s.rck ∧ (s.requestLink).coh = s.coh
      ∧ (s.requestLink).sel.groupDue = s.sel.groupDue ∧ (s.requestLink).sel.groupBudget = s.sel.groupBudget
      ∧ (s.requestLink).sel.promptBudget = s.sel.promptBudget ∧ (s.requestLink).sel.groupAllot = s.sel.groupAllot
      ∧ (s.requestLink).sel.promptAllot = s.sel.promptAllot ∧ (s.requestLink).ord = s.ord
      ∧ (s.requestLink).mgd.freeNow = s.mgd.freeNow ∧ (s.requestLink).mgd.blanking = s.mgd.blanking
      ∧ (s.requestLink).mgd.capture = s.mgd.capture ∧ (s.requestLink).mgd.mediumAlerts = s.mgd.mediumAlerts
      ∧ (s.requestLink).mgd.mediumReports = s.mgd.mediumReports
      ∧ (s.requestLink).mgd.reportsBlanked = s.mgd.reportsBlanked
      ∧ (s.requestLink).mgd.mediumIgnored = s.mgd.mediumIgnored ∧ (s.requestLink).mod.config = s.mod.config
      ∧ (s.requestLink).mod.configValid = s.mod.configValid ∧ (s.requestLink).mod.alertsSent = s.mod.alertsSent
      ∧ (s.requestLink).resetN = s.resetN ∧ (s.requestLink).pending = s.pending
      ∧ (∀ j, (s.requestLink).station j = s.station j) ∧ (∀ j, (s.requestLink).lanesOf j = s.lanesOf j)
      ∧ (∀ j m, (s.requestLink).lane j m = s.lane j m) ∧ (∀ k, (s.requestLink).cohort k = s.cohort k)
      ∧ (s.requestLink).radioFree = s.radioFree ∧ (s.requestLink).outFree = s.outFree := by
  unfold State.requestLink
  and_intros <;> intros <;> (try dsimp only) <;> (repeat' split)
    <;> first | (simp; done) | simp [State.station, State.lane, State.lanesOf, State.radioFree, State.outFree]

@[simp] theorem restartBlanking_keeps (s : State) :
    (s.restartBlanking).cli = s.cli ∧ (s.restartBlanking).rli = s.rli ∧ (s.restartBlanking).stt = s.stt
      ∧ (s.restartBlanking).fpl = s.fpl ∧ (s.restartBlanking).rck = s.rck ∧ (s.restartBlanking).coh = s.coh
      ∧ (s.restartBlanking).sel = s.sel ∧ (s.restartBlanking).ord = s.ord
      ∧ (s.restartBlanking).mgd.freeNow = s.mgd.freeNow ∧ (s.restartBlanking).mgd.capture = s.mgd.capture
      ∧ (s.restartBlanking).mgd.mediumAlerts = s.mgd.mediumAlerts
      ∧ (s.restartBlanking).mgd.mediumReports = s.mgd.mediumReports
      ∧ (s.restartBlanking).mgd.reportsBlanked = s.mgd.reportsBlanked
      ∧ (s.restartBlanking).mgd.linkRaises = s.mgd.linkRaises
      ∧ (s.restartBlanking).mgd.mediumIgnored = s.mgd.mediumIgnored ∧ (s.restartBlanking).mod = s.mod
      ∧ (s.restartBlanking).resetN = s.resetN ∧ (s.restartBlanking).pending = s.pending
      ∧ (∀ j, (s.restartBlanking).station j = s.station j) ∧ (∀ j, (s.restartBlanking).lanesOf j = s.lanesOf j)
      ∧ (∀ j m, (s.restartBlanking).lane j m = s.lane j m) ∧ (∀ k, (s.restartBlanking).cohort k = s.cohort k)
      ∧ (s.restartBlanking).radioFree = s.radioFree ∧ (s.restartBlanking).outFree = s.outFree := by
  unfold State.restartBlanking
  and_intros <;> intros <;> (try dsimp only) <;> (repeat' split)
    <;> first | (simp; done) | simp [State.station, State.lane, State.lanesOf, State.radioFree, State.outFree]

@[simp] theorem stopClocks_keeps (s : State) :
    (s.stopClocks).cli = s.cli ∧ (s.stopClocks).rli = s.rli ∧ (s.stopClocks).stt = s.stt ∧ (s.stopClocks).fpl = s.fpl
      ∧ (s.stopClocks).rck.deviceTime = s.rck.deviceTime ∧ (s.stopClocks).rck.timeRunning = s.rck.timeRunning
      ∧ (s.stopClocks).rck.round = s.rck.round ∧ (s.stopClocks).rck.lastRoundAt = s.rck.lastRoundAt
      ∧ (s.stopClocks).rck.nextRoundAt = s.rck.nextRoundAt ∧ (s.stopClocks).rck.promptPeriod = s.rck.promptPeriod
      ∧ (s.stopClocks).rck.nextPromptAt = s.rck.nextPromptAt ∧ (s.stopClocks).rck.figures = s.rck.figures
      ∧ (s.stopClocks).rck.promptUsed = s.rck.promptUsed ∧ (s.stopClocks).rck.postscaler = s.rck.postscaler
      ∧ (s.stopClocks).rck.skipped = s.rck.skipped ∧ (s.stopClocks).rck.reportsSent = s.rck.reportsSent
      ∧ (s.stopClocks).rck.reportsSkipped = s.rck.reportsSkipped ∧ (s.stopClocks).coh = s.coh
      ∧ (s.stopClocks).sel = s.sel ∧ (s.stopClocks).ord = s.ord ∧ (s.stopClocks).mgd = s.mgd
      ∧ (s.stopClocks).mod = s.mod ∧ (s.stopClocks).resetN = s.resetN ∧ (s.stopClocks).pending = s.pending
      ∧ (∀ j, (s.stopClocks).station j = s.station j) ∧ (∀ j, (s.stopClocks).lanesOf j = s.lanesOf j)
      ∧ (∀ j m, (s.stopClocks).lane j m = s.lane j m) ∧ (∀ k, (s.stopClocks).cohort k = s.cohort k)
      ∧ (s.stopClocks).radioFree = s.radioFree ∧ (s.stopClocks).outFree = s.outFree := by
  unfold State.stopClocks
  and_intros <;> intros <;> (try dsimp only) <;> (repeat' split)
    <;> first | (simp; done) | simp [State.station, State.lane, State.lanesOf, State.radioFree, State.outFree]

@[simp] theorem enterReady_keeps (s : State) :
    (s.enterReady).cli = s.cli ∧ (s.enterReady).rli = s.rli ∧ (s.enterReady).stt.linkNotes = s.stt.linkNotes
      ∧ (s.enterReady).stt.radioIgnored = s.stt.radioIgnored ∧ (s.enterReady).fpl = s.fpl
      ∧ (s.enterReady).rck.deviceTime = s.rck.deviceTime ∧ (s.enterReady).rck.timeRunning = s.rck.timeRunning
      ∧ (s.enterReady).rck.round = s.rck.round ∧ (s.enterReady).rck.lastRoundAt = s.rck.lastRoundAt
      ∧ (s.enterReady).rck.nextRoundAt = s.rck.nextRoundAt ∧ (s.enterReady).rck.promptPeriod = s.rck.promptPeriod
      ∧ (s.enterReady).rck.nextPromptAt = s.rck.nextPromptAt ∧ (s.enterReady).rck.figures = s.rck.figures
      ∧ (s.enterReady).rck.promptUsed = s.rck.promptUsed ∧ (s.enterReady).rck.postscaler = s.rck.postscaler
      ∧ (s.enterReady).rck.skipped = s.rck.skipped ∧ (s.enterReady).rck.reportsSent = s.rck.reportsSent
      ∧ (s.enterReady).rck.reportsSkipped = s.rck.reportsSkipped ∧ (s.enterReady).sel = s.sel
      ∧ (s.enterReady).ord = s.ord ∧ (s.enterReady).mgd = s.mgd ∧ (s.enterReady).mod.causes = s.mod.causes
      ∧ (s.enterReady).mod.config = s.mod.config ∧ (s.enterReady).mod.configValid = s.mod.configValid
      ∧ (s.enterReady).mod.alertsSent = s.mod.alertsSent ∧ (s.enterReady).resetN = s.resetN
      ∧ (s.enterReady).pending = s.pending ∧ (∀ j, (s.enterReady).lanesOf j = s.lanesOf j)
      ∧ (∀ j m, (s.enterReady).lane j m = s.lane j m) ∧ (s.enterReady).radioFree = s.radioFree
      ∧ (s.enterReady).outFree = s.outFree := by
  unfold State.enterReady
  and_intros <;> intros <;> (try dsimp only) <;> (repeat' split)
    <;> first | (simp; done) | simp [State.station, State.lane, State.lanesOf, State.radioFree, State.outFree]

@[simp] theorem reportEmpty_keeps (s : State) :
    (s.reportEmpty).cli = s.cli ∧ (s.reportEmpty).rli = s.rli ∧ (s.reportEmpty).stt.linkNotes = s.stt.linkNotes
      ∧ (s.reportEmpty).stt.radioIgnored = s.stt.radioIgnored ∧ (s.reportEmpty).fpl = s.fpl
      ∧ (s.reportEmpty).rck.deviceTime = s.rck.deviceTime ∧ (s.reportEmpty).rck.timeRunning = s.rck.timeRunning
      ∧ (s.reportEmpty).rck.round = s.rck.round ∧ (s.reportEmpty).rck.lastRoundAt = s.rck.lastRoundAt
      ∧ (s.reportEmpty).rck.nextRoundAt = s.rck.nextRoundAt ∧ (s.reportEmpty).rck.promptPeriod = s.rck.promptPeriod
      ∧ (s.reportEmpty).rck.nextPromptAt = s.rck.nextPromptAt ∧ (s.reportEmpty).rck.figures = s.rck.figures
      ∧ (s.reportEmpty).rck.promptUsed = s.rck.promptUsed ∧ (s.reportEmpty).rck.postscaler = s.rck.postscaler
      ∧ (s.reportEmpty).rck.skipped = s.rck.skipped ∧ (s.reportEmpty).rck.reportsSent = s.rck.reportsSent
      ∧ (s.reportEmpty).rck.reportsSkipped = s.rck.reportsSkipped ∧ (s.reportEmpty).sel = s.sel
      ∧ (s.reportEmpty).ord = s.ord ∧ (s.reportEmpty).mgd = s.mgd ∧ (s.reportEmpty).mod.causes = s.mod.causes
      ∧ (s.reportEmpty).mod.config = s.mod.config ∧ (s.reportEmpty).mod.configValid = s.mod.configValid
      ∧ (s.reportEmpty).mod.alertsSent = s.mod.alertsSent ∧ (s.reportEmpty).resetN = s.resetN
      ∧ (s.reportEmpty).pending = s.pending ∧ (∀ j, (s.reportEmpty).lanesOf j = s.lanesOf j)
      ∧ (∀ j m, (s.reportEmpty).lane j m = s.lane j m) ∧ (s.reportEmpty).radioFree = s.radioFree
      ∧ (s.reportEmpty).outFree = s.outFree := by
  unfold State.reportEmpty
  and_intros <;> intros <;> (try dsimp only) <;> (repeat' split)
    <;> first | (simp; done) | simp [State.station, State.lane, State.lanesOf, State.radioFree, State.outFree]

@[simp] theorem placeReport_keeps (s : State) :
    (s.placeReport).rli = s.rli ∧ (s.placeReport).stt = s.stt ∧ (s.placeReport).fpl = s.fpl
      ∧ (s.placeReport).rck.deviceTime = s.rck.deviceTime ∧ (s.placeReport).rck.timeRunning = s.rck.timeRunning
      ∧ (s.placeReport).rck.clocksRunning = s.rck.clocksRunning ∧ (s.placeReport).rck.round = s.rck.round
      ∧ (s.placeReport).rck.lastRoundAt = s.rck.lastRoundAt ∧ (s.placeReport).rck.nextRoundAt = s.rck.nextRoundAt
      ∧ (s.placeReport).rck.promptPeriod = s.rck.promptPeriod ∧ (s.placeReport).rck.nextPromptAt = s.rck.nextPromptAt
      ∧ (s.placeReport).rck.figures = s.rck.figures ∧ (s.placeReport).rck.promptUsed = s.rck.promptUsed
      ∧ (s.placeReport).coh = s.coh ∧ (s.placeReport).sel = s.sel ∧ (s.placeReport).ord = s.ord
      ∧ (s.placeReport).mgd = s.mgd ∧ (s.placeReport).mod = s.mod ∧ (s.placeReport).resetN = s.resetN
      ∧ (s.placeReport).pending = s.pending ∧ (∀ j, (s.placeReport).station j = s.station j)
      ∧ (∀ j, (s.placeReport).lanesOf j = s.lanesOf j) ∧ (∀ j m, (s.placeReport).lane j m = s.lane j m)
      ∧ (∀ k, (s.placeReport).cohort k = s.cohort k) ∧ (s.placeReport).radioFree = s.radioFree := by
  unfold State.placeReport
  and_intros <;> intros <;> (try dsimp only) <;> (repeat' split)
    <;> first | (simp; done) | simp [State.station, State.lane, State.lanesOf, State.radioFree, State.outFree]

@[simp] theorem closeRound_keeps (s : State) :
    (s.closeRound).rli = s.rli ∧ (s.closeRound).stt = s.stt ∧ (s.closeRound).fpl = s.fpl
      ∧ (s.closeRound).rck.deviceTime = s.rck.deviceTime ∧ (s.closeRound).rck.timeRunning = s.rck.timeRunning
      ∧ (s.closeRound).rck.clocksRunning = s.rck.clocksRunning ∧ (s.closeRound).rck.round = s.rck.round
      ∧ (s.closeRound).rck.lastRoundAt = s.rck.lastRoundAt ∧ (s.closeRound).rck.nextRoundAt = s.rck.nextRoundAt
      ∧ (s.closeRound).rck.promptPeriod = s.rck.promptPeriod ∧ (s.closeRound).rck.nextPromptAt = s.rck.nextPromptAt
      ∧ (s.closeRound).rck.figures = s.rck.figures ∧ (s.closeRound).rck.promptUsed = s.rck.promptUsed
      ∧ (s.closeRound).coh = s.coh ∧ (s.closeRound).sel = s.sel ∧ (s.closeRound).ord = s.ord
      ∧ (s.closeRound).mgd = s.mgd ∧ (s.closeRound).mod = s.mod ∧ (s.closeRound).resetN = s.resetN
      ∧ (s.closeRound).pending = s.pending ∧ (∀ j, (s.closeRound).station j = s.station j)
      ∧ (∀ j, (s.closeRound).lanesOf j = s.lanesOf j) ∧ (∀ j m, (s.closeRound).lane j m = s.lane j m)
      ∧ (∀ k, (s.closeRound).cohort k = s.cohort k) ∧ (s.closeRound).radioFree = s.radioFree := by
  unfold State.closeRound
  and_intros <;> intros <;> (try dsimp only) <;> (repeat' split)
    <;> first | (simp; done) | simp [State.station, State.lane, State.lanesOf, State.radioFree, State.outFree]

@[simp] theorem formFigures_keeps (s : State) :
    (s.formFigures).cli = s.cli ∧ (s.formFigures).rli = s.rli ∧ (s.formFigures).stt.linkNotes = s.stt.linkNotes
      ∧ (s.formFigures).stt.radioIgnored = s.stt.radioIgnored ∧ (s.formFigures).fpl = s.fpl
      ∧ (s.formFigures).rck.deviceTime = s.rck.deviceTime ∧ (s.formFigures).rck.timeRunning = s.rck.timeRunning
      ∧ (s.formFigures).rck.clocksRunning = s.rck.clocksRunning ∧ (s.formFigures).rck.round = s.rck.round
      ∧ (s.formFigures).rck.lastRoundAt = s.rck.lastRoundAt ∧ (s.formFigures).rck.nextRoundAt = s.rck.nextRoundAt
      ∧ (s.formFigures).rck.promptPeriod = s.rck.promptPeriod ∧ (s.formFigures).rck.nextPromptAt = s.rck.nextPromptAt
      ∧ (s.formFigures).rck.postscaler = s.rck.postscaler ∧ (s.formFigures).rck.skipped = s.rck.skipped
      ∧ (s.formFigures).rck.reportsSent = s.rck.reportsSent
      ∧ (s.formFigures).rck.reportsSkipped = s.rck.reportsSkipped ∧ (s.formFigures).sel.active = s.sel.active
      ∧ (s.formFigures).sel.prompt = s.sel.prompt ∧ (s.formFigures).sel.poll = s.sel.poll
      ∧ (s.formFigures).sel.promptBudget = s.sel.promptBudget ∧ (s.formFigures).sel.promptAllot = s.sel.promptAllot
      ∧ (s.formFigures).sel.choice = s.sel.choice ∧ (s.formFigures).ord = s.ord ∧ (s.formFigures).mgd = s.mgd
      ∧ (s.formFigures).mod = s.mod ∧ (s.formFigures).resetN = s.resetN ∧ (s.formFigures).pending = s.pending
      ∧ (∀ j, (s.formFigures).lanesOf j = s.lanesOf j) ∧ (∀ j m, (s.formFigures).lane j m = s.lane j m)
      ∧ (s.formFigures).radioFree = s.radioFree ∧ (s.formFigures).outFree = s.outFree := by
  unfold State.formFigures
  and_intros <;> intros <;> (try dsimp only) <;> (repeat' split)
    <;> first | (simp; done) | simp [State.station, State.lane, State.lanesOf, State.radioFree, State.outFree]

@[simp] theorem beginRound_keeps (s : State) :
    (s.beginRound).cli = s.cli ∧ (s.beginRound).rli = s.rli ∧ (s.beginRound).stt.linkNotes = s.stt.linkNotes
      ∧ (s.beginRound).stt.radioIgnored = s.stt.radioIgnored ∧ (s.beginRound).fpl = s.fpl
      ∧ (s.beginRound).rck.deviceTime = s.rck.deviceTime ∧ (s.beginRound).rck.timeRunning = s.rck.timeRunning
      ∧ (s.beginRound).rck.clocksRunning = s.rck.clocksRunning ∧ (s.beginRound).rck.round = s.rck.round
      ∧ (s.beginRound).rck.lastRoundAt = s.rck.lastRoundAt ∧ (s.beginRound).rck.nextRoundAt = s.rck.nextRoundAt
      ∧ (s.beginRound).rck.promptPeriod = s.rck.promptPeriod ∧ (s.beginRound).rck.nextPromptAt = s.rck.nextPromptAt
      ∧ (s.beginRound).rck.postscaler = s.rck.postscaler ∧ (s.beginRound).rck.skipped = s.rck.skipped
      ∧ (s.beginRound).rck.reportsSent = s.rck.reportsSent ∧ (s.beginRound).rck.reportsSkipped = s.rck.reportsSkipped
      ∧ (s.beginRound).sel.active = s.sel.active ∧ (s.beginRound).sel.prompt = s.sel.prompt
      ∧ (s.beginRound).sel.poll = s.sel.poll ∧ (s.beginRound).sel.promptBudget = s.sel.promptBudget
      ∧ (s.beginRound).sel.promptAllot = s.sel.promptAllot ∧ (s.beginRound).sel.choice = s.sel.choice
      ∧ (s.beginRound).ord = s.ord ∧ (s.beginRound).mgd = s.mgd ∧ (s.beginRound).mod = s.mod
      ∧ (s.beginRound).resetN = s.resetN ∧ (s.beginRound).pending = s.pending
      ∧ (∀ j, (s.beginRound).lanesOf j = s.lanesOf j) ∧ (∀ j m, (s.beginRound).lane j m = s.lane j m)
      ∧ (s.beginRound).radioFree = s.radioFree ∧ (s.beginRound).outFree = s.outFree := by
  unfold State.beginRound
  and_intros <;> intros <;> (try dsimp only) <;> (repeat' split)
    <;> first | (simp; done) | simp [State.station, State.lane, State.lanesOf, State.radioFree, State.outFree]

@[simp] theorem beginPromptPeriod_keeps (s : State) :
    (s.beginPromptPeriod).cli = s.cli ∧ (s.beginPromptPeriod).rli = s.rli ∧ (s.beginPromptPeriod).stt = s.stt
      ∧ (s.beginPromptPeriod).fpl = s.fpl ∧ (s.beginPromptPeriod).rck = s.rck ∧ (s.beginPromptPeriod).coh = s.coh
      ∧ (s.beginPromptPeriod).sel.active = s.sel.active ∧ (s.beginPromptPeriod).sel.prompt = s.sel.prompt
      ∧ (s.beginPromptPeriod).sel.poll = s.sel.poll ∧ (s.beginPromptPeriod).sel.groupDue = s.sel.groupDue
      ∧ (s.beginPromptPeriod).sel.groupBudget = s.sel.groupBudget
      ∧ (s.beginPromptPeriod).sel.groupAllot = s.sel.groupAllot ∧ (s.beginPromptPeriod).sel.choice = s.sel.choice
      ∧ (s.beginPromptPeriod).ord = s.ord ∧ (s.beginPromptPeriod).mgd = s.mgd ∧ (s.beginPromptPeriod).mod = s.mod
      ∧ (s.beginPromptPeriod).resetN = s.resetN ∧ (s.beginPromptPeriod).pending = s.pending
      ∧ (∀ j, (s.beginPromptPeriod).station j = s.station j) ∧ (∀ j, (s.beginPromptPeriod).lanesOf j = s.lanesOf j)
      ∧ (∀ j m, (s.beginPromptPeriod).lane j m = s.lane j m) ∧ (∀ k, (s.beginPromptPeriod).cohort k = s.cohort k)
      ∧ (s.beginPromptPeriod).radioFree = s.radioFree ∧ (s.beginPromptPeriod).outFree = s.outFree := by
  unfold State.beginPromptPeriod
  and_intros <;> intros <;> (try dsimp only) <;> (repeat' split)
    <;> first | (simp; done) | simp [State.station, State.lane, State.lanesOf, State.radioFree, State.outFree]

@[simp] theorem advanceRound_keeps (s : State) :
    (s.advanceRound).cli = s.cli ∧ (s.advanceRound).rli = s.rli ∧ (s.advanceRound).stt = s.stt
      ∧ (s.advanceRound).fpl = s.fpl ∧ (s.advanceRound).rck.deviceTime = s.rck.deviceTime
      ∧ (s.advanceRound).rck.timeRunning = s.rck.timeRunning
      ∧ (s.advanceRound).rck.clocksRunning = s.rck.clocksRunning
      ∧ (s.advanceRound).rck.promptPeriod = s.rck.promptPeriod
      ∧ (s.advanceRound).rck.nextPromptAt = s.rck.nextPromptAt ∧ (s.advanceRound).rck.figures = s.rck.figures
      ∧ (s.advanceRound).rck.promptUsed = s.rck.promptUsed ∧ (s.advanceRound).rck.postscaler = s.rck.postscaler
      ∧ (s.advanceRound).rck.skipped = s.rck.skipped ∧ (s.advanceRound).rck.reportsSent = s.rck.reportsSent
      ∧ (s.advanceRound).rck.reportsSkipped = s.rck.reportsSkipped ∧ (s.advanceRound).coh = s.coh
      ∧ (s.advanceRound).sel = s.sel ∧ (s.advanceRound).ord = s.ord ∧ (s.advanceRound).mgd = s.mgd
      ∧ (s.advanceRound).mod = s.mod ∧ (s.advanceRound).resetN = s.resetN ∧ (s.advanceRound).pending = s.pending
      ∧ (∀ j, (s.advanceRound).station j = s.station j) ∧ (∀ j, (s.advanceRound).lanesOf j = s.lanesOf j)
      ∧ (∀ j m, (s.advanceRound).lane j m = s.lane j m) ∧ (∀ k, (s.advanceRound).cohort k = s.cohort k)
      ∧ (s.advanceRound).radioFree = s.radioFree ∧ (s.advanceRound).outFree = s.outFree := by
  unfold State.advanceRound
  and_intros <;> intros <;> (try dsimp only) <;> (repeat' split)
    <;> first | (simp; done) | simp [State.station, State.lane, State.lanesOf, State.radioFree, State.outFree]

@[simp] theorem advancePrompt_keeps (s : State) (x : Time) :
    (s.advancePrompt x).cli = s.cli ∧ (s.advancePrompt x).rli = s.rli ∧ (s.advancePrompt x).stt = s.stt
      ∧ (s.advancePrompt x).fpl = s.fpl ∧ (s.advancePrompt x).rck.deviceTime = s.rck.deviceTime
      ∧ (s.advancePrompt x).rck.timeRunning = s.rck.timeRunning
      ∧ (s.advancePrompt x).rck.clocksRunning = s.rck.clocksRunning ∧ (s.advancePrompt x).rck.round = s.rck.round
      ∧ (s.advancePrompt x).rck.lastRoundAt = s.rck.lastRoundAt
      ∧ (s.advancePrompt x).rck.nextRoundAt = s.rck.nextRoundAt ∧ (s.advancePrompt x).rck.figures = s.rck.figures
      ∧ (s.advancePrompt x).rck.promptUsed = s.rck.promptUsed ∧ (s.advancePrompt x).rck.postscaler = s.rck.postscaler
      ∧ (s.advancePrompt x).rck.skipped = s.rck.skipped ∧ (s.advancePrompt x).rck.reportsSent = s.rck.reportsSent
      ∧ (s.advancePrompt x).rck.reportsSkipped = s.rck.reportsSkipped ∧ (s.advancePrompt x).coh = s.coh
      ∧ (s.advancePrompt x).sel = s.sel ∧ (s.advancePrompt x).ord = s.ord ∧ (s.advancePrompt x).mgd = s.mgd
      ∧ (s.advancePrompt x).mod = s.mod ∧ (s.advancePrompt x).resetN = s.resetN
      ∧ (s.advancePrompt x).pending = s.pending ∧ (∀ j, (s.advancePrompt x).station j = s.station j)
      ∧ (∀ j, (s.advancePrompt x).lanesOf j = s.lanesOf j) ∧ (∀ j m, (s.advancePrompt x).lane j m = s.lane j m)
      ∧ (∀ k, (s.advancePrompt x).cohort k = s.cohort k) ∧ (s.advancePrompt x).radioFree = s.radioFree
      ∧ (s.advancePrompt x).outFree = s.outFree := by
  unfold State.advancePrompt
  and_intros <;> intros <;> (try dsimp only) <;> (repeat' split)
    <;> first | (simp; done) | simp [State.station, State.lane, State.lanesOf, State.radioFree, State.outFree]

end Sys2Proof.Machine
end

