-- ==== Sys2Proof/Laws/Links.lean ====
section
/-!
SUPPORT. What the Control Link does with a command at the head of its queue, and the Radio Link with a record at the
head of its own, said once: the owner's decision on the part without that record, and the reply behind it.
-/

namespace Sys2Proof.Machine

/-! ## RESET_N -/

@[simp] theorem whenReleased_of_released {s : State} (f : State → State) (h : s.resetN = false) :
    s.whenReleased f = .next (f s) := by
  simp [State.whenReleased, h]

@[simp] theorem whenReleased_of_asserted {s : State} (f : State → State) (h : s.resetN = true) :
    s.whenReleased f = .next s := by
  simp [State.whenReleased, h]

@[simp] theorem whenSelected_of_released {s : State} (n : Nat) (f : State → State) (h : s.resetN = false) :
    s.whenSelected n f = .next (f s) := by
  simp [State.whenSelected, h]

@[simp] theorem whenSelected_of_asserted {s : State} (n : Nat) (f : State → State) (h : s.resetN = true) :
    s.whenSelected n f = .next (s.returnFiller n) := by
  simp [State.whenSelected, h]

/-- Filler in every position of the transaction (R173). -/
theorem returnFiller_eq (s : State) (n : Nat) :
    s.returnFiller n = { s with cli := { s.cli with sdo := List.replicate (n + 1) Config.filler } } := by
  simp [State.returnFiller, State.updCli, driven, List.replicate_succ]

/-! ## Choices -/

theorem buildOrders_of_no_choice (n : Nat) {s : State} (h : s.sel.choice = none) : State.buildOrders n s = s := by
  cases n <;> simp [State.buildOrders, h]

/-- Where no choice waits, there is nothing to follow through. -/
theorem settle_of_no_choice {s : State} (h : s.sel.choice = none) : s.settle = s := by
  unfold State.settle
  rw [buildOrders_of_no_choice 8 h]
  unfold State.updSel
  rw [← h]

/-- Behind a settlement no choice waits. -/
@[simp] theorem settle_choice (s : State) : s.settle.sel.choice = none := rfl

/-! ## The control outbound queue -/

/-- What pushOut does to CLI, in the words of the statements. -/
theorem pushOut_cli (s : State) (x : OutRecord) :
    (s.pushOut x).cli = Cli.pushed s.cli s.rck.deviceTime s.mod.attnOperation x := by
  simp [State.pushOut, Cli.pushed, Option.isNone_iff_eq_none, Config.backlogMax]

theorem pushOut_eq (s : State) (x : OutRecord) :
    s.pushOut x = { s with cli := Cli.pushed s.cli s.rck.deviceTime s.mod.attnOperation x } := by
  have h := pushOut_cli s x
  unfold State.pushOut State.updCli at *
  simp only at h ⊢
  rw [h]

@[simp] theorem pushed_inbound (c : Cli) (now : Time) (op : Option AttnMode) (x : OutRecord) :
    (Cli.pushed c now op x).inbound = c.inbound := rfl
@[simp] theorem pushed_outbound (c : Cli) (now : Time) (op : Option AttnMode) (x : OutRecord) :
    (Cli.pushed c now op x).outbound = c.outbound ++ [x] := rfl
@[simp] theorem pushed_transaction (c : Cli) (now : Time) (op : Option AttnMode) (x : OutRecord) :
    (Cli.pushed c now op x).transaction = c.transaction := rfl
@[simp] theorem pushed_sdo (c : Cli) (now : Time) (op : Option AttnMode) (x : OutRecord) :
    (Cli.pushed c now op x).sdo = c.sdo := rfl

/-! ## Dispatch -/

theorem dispatchable_of_cons {s : State} {r : HostRecord} {rest : List HostRecord} {wanted : Byte → Bool}
    (hi : s.cli.inbound = r :: rest) (ho : s.cli.outbound.length < 16) (hw : wanted r.typ = true) :
    s.dispatchable wanted = some r := by
  simp [State.dispatchable, hi, hw, State.outFree, Config.controlOutbound, ho]

theorem dispatchable_eq_none {s : State} {wanted : Byte → Bool}
    (h : ∀ r rest, s.cli.inbound = r :: rest → wanted r.typ = true → 16 ≤ s.cli.outbound.length) :
    s.dispatchable wanted = none := by
  unfold State.dispatchable
  split
  · rfl
  · rename_i r rest hi
    have := h r rest hi
    rw [if_neg]
    simp only [Bool.and_eq_true, decide_eq_true_eq, not_and]
    intro hw
    have := this hw
    simp only [State.outFree, Config.controlOutbound]
    omega

/-- A dispatched command whose record passes the CLI's checks: its owner's decision, then the reply. -/
theorem dispatch_of_heads {s : State} {c : Command} {r : HostRecord} {rest : List HostRecord}
    (d : State → List Byte → State × Reply) (h : s.Heads c r rest) :
    s.dispatch c d
      = (d { s with cli := { s.cli with inbound := rest } } r.body).1.pushOut
          (.reply r.typ r.tag (d { s with cli := { s.cli with inbound := rest } } r.body).2) := by
  obtain ⟨_, hc, hi, ho, hn, hs, hb⟩ := h
  unfold State.dispatch
  rw [dispatchable_of_cons hi ho (by simp [names, hn])]
  simp [settle_of_no_choice hc, State.popInbound, State.updCli, hi, HostRecord.lengthOk, hs, hb]

/-- A command that is refused is answered, and nothing else changes. -/
theorem dispatch_refused {s : State} {c : Command} {r : HostRecord} {rest : List HostRecord}
    (d : State → List Byte → State × Reply) (h : s.Heads c r rest) {k : ReplyCode}
    (hd : ∀ t : State, t = { s with cli := { s.cli with inbound := rest } } → d t r.body = (t, .code k)) :
    s.dispatch c d = { s with cli := s.answered r rest (.code k) } := by
  rw [dispatch_of_heads d h, hd _ rfl]
  simp [pushOut_eq, State.answered]

/-- The event that dispatches a record whose type names `c` is `c`'s own. -/
theorem dispatchEvent_of_command {typ : Byte} {c : Command} (h : commandOf typ = some c) :
    dispatchEvent typ = c.event := by
  simp [dispatchEvent, h]

/-- The owner's decision of each command. -/
def Command.decision (c : Command) : State → List Byte → State × Reply :=
  match c with
  | .configure => decideConfigure
  | .start => decideStart
  | .stop => decideStop
  | .abort => decideAbort
  | .reset => decideReset
  | .quiet => decideQuiet
  | .resume => decideResume
  | .status => decideStatus
  | .admitStation => decideAdmit
  | .release => decideRelease
  | .setWeight => decideSetWeight
  | .hold => decideHold
  | .enqueue => decideEnqueue
  | .flush => decideFlush
  | .setCohort => decideSetCohort
  | .query => decideQuery

/-- What each command's row does while RESET_N is released. -/
theorem exec_command {s : State} (c : Command) (h : s.resetN = false) :
    exec c.event s = .next (if c = .configure then (s.dispatch c c.decision).reformAttn s.mod.attnOperation
      else s.dispatch c c.decision) := by
  cases c <;>
    simp [exec, Command.event, Command.decision, State.whenReleased, h, execConfigure, execStart, execStop, execAbort,
      execReset, execQuiet, execResume, execStatus, execAdmit, execRelease, execSetWeight, execHold, execEnqueue,
      execFlush, execSetCohort, execQuery]

/-- The same for a command that stands at the head and passes the CLI's checks. -/
theorem exec_of_heads {s : State} {c : Command} {r : HostRecord} {rest : List HostRecord} (h : s.Heads c r rest) :
    exec c.event s = .next (if c = .configure then (s.dispatch c c.decision).reformAttn s.mod.attnOperation
      else s.dispatch c c.decision) :=
  exec_command c h.1

/-! ## Delivery -/

/-- A record that its owner takes leaves the radio inbound queue, and the owner does the rest. -/
theorem deliver_of_delivers {s : State} {r : MacRecord} {rest : List MacRecord}
    (take : MacRecord → Option (State → State)) {f : State → State} (h : s.Delivers r rest) (ht : take r = some f) :
    s.deliver take = f { s with rli := s.delivered rest } := by
  obtain ⟨_, hc, hi⟩ := h
  unfold State.deliver
  rw [hi]
  simp [ht, settle_of_no_choice hc, State.updRli, hi, State.delivered]

end Sys2Proof.Machine
end

