-- ==== Sys2Proof/Laws/Decisions.lean ====
section
/-!
SUPPORT. What the owners' decisions leave as it is: the operations of the host commands and of the delivered records,
one lemma an operation, and one for every decision.
-/

set_option linter.unusedTactic false
set_option linter.unreachableTactic false

namespace Sys2Proof.Machine

/-! ## Host commands -/

@[simp] theorem writeConfiguration_keeps (s : State) (x : Configuration) :
    (s.writeConfiguration x).cli = s.cli ∧ (s.writeConfiguration x).rli = s.rli ∧ (s.writeConfiguration x).stt = s.stt
      ∧ (s.writeConfiguration x).fpl = s.fpl ∧ (s.writeConfiguration x).rck = s.rck
      ∧ (s.writeConfiguration x).coh = s.coh ∧ (s.writeConfiguration x).sel = s.sel
      ∧ (s.writeConfiguration x).ord = s.ord ∧ (s.writeConfiguration x).mgd = s.mgd
      ∧ (s.writeConfiguration x).mod.mode = s.mod.mode ∧ (s.writeConfiguration x).mod.causes = s.mod.causes
      ∧ (s.writeConfiguration x).mod.pendingAlert = s.mod.pendingAlert
      ∧ (s.writeConfiguration x).mod.alertsSent = s.mod.alertsSent ∧ (s.writeConfiguration x).resetN = s.resetN
      ∧ (s.writeConfiguration x).pending = s.pending ∧ (∀ j, (s.writeConfiguration x).station j = s.station j)
      ∧ (∀ j, (s.writeConfiguration x).lanesOf j = s.lanesOf j)
      ∧ (∀ j m, (s.writeConfiguration x).lane j m = s.lane j m)
      ∧ (∀ k, (s.writeConfiguration x).cohort k = s.cohort k) ∧ (s.writeConfiguration x).radioFree = s.radioFree
      ∧ (s.writeConfiguration x).outFree = s.outFree := by
  unfold State.writeConfiguration
  and_intros <;> intros <;> (try dsimp only) <;> (repeat' split)
    <;> first | (simp; done) | simp [State.station, State.lane, State.lanesOf, State.radioFree, State.outFree]

@[simp] theorem leaveHalted_keeps (s : State) :
    (s.leaveHalted).cli = s.cli ∧ (s.leaveHalted).rli = s.rli ∧ (s.leaveHalted).stt.linkNotes = s.stt.linkNotes
      ∧ (s.leaveHalted).stt.radioIgnored = s.stt.radioIgnored ∧ (s.leaveHalted).fpl = s.fpl
      ∧ (s.leaveHalted).rck.clocksRunning = s.rck.clocksRunning ∧ (s.leaveHalted).rck.round = s.rck.round
      ∧ (s.leaveHalted).rck.lastRoundAt = s.rck.lastRoundAt ∧ (s.leaveHalted).rck.nextRoundAt = s.rck.nextRoundAt
      ∧ (s.leaveHalted).rck.promptPeriod = s.rck.promptPeriod ∧ (s.leaveHalted).rck.nextPromptAt = s.rck.nextPromptAt
      ∧ (s.leaveHalted).rck.figures = s.rck.figures ∧ (s.leaveHalted).rck.promptUsed = s.rck.promptUsed
      ∧ (s.leaveHalted).rck.postscaler = s.rck.postscaler ∧ (s.leaveHalted).rck.skipped = s.rck.skipped
      ∧ (s.leaveHalted).rck.reportsSent = s.rck.reportsSent
      ∧ (s.leaveHalted).rck.reportsSkipped = s.rck.reportsSkipped ∧ (s.leaveHalted).coh = s.coh
      ∧ (s.leaveHalted).sel = s.sel ∧ (s.leaveHalted).ord = s.ord ∧ (s.leaveHalted).mgd = s.mgd
      ∧ (s.leaveHalted).mod.causes = s.mod.causes ∧ (s.leaveHalted).mod.config = s.mod.config
      ∧ (s.leaveHalted).mod.configValid = s.mod.configValid ∧ (s.leaveHalted).mod.alertsSent = s.mod.alertsSent
      ∧ (s.leaveHalted).resetN = s.resetN ∧ (s.leaveHalted).pending = s.pending
      ∧ (∀ j, (s.leaveHalted).lanesOf j = s.lanesOf j) ∧ (∀ j m, (s.leaveHalted).lane j m = s.lane j m)
      ∧ (∀ k, (s.leaveHalted).cohort k = s.cohort k) ∧ (s.leaveHalted).radioFree = s.radioFree
      ∧ (s.leaveHalted).outFree = s.outFree := by
  unfold State.leaveHalted
  and_intros <;> intros <;> (try dsimp only) <;> (repeat' split)
    <;> first | (simp; done) | simp [State.station, State.lane, State.lanesOf, State.radioFree, State.outFree]

@[simp] theorem boundaryZero_keeps (s : State) :
    (s.boundaryZero).cli = s.cli ∧ (s.boundaryZero).rli = s.rli ∧ (s.boundaryZero).stt.linkNotes = s.stt.linkNotes
      ∧ (s.boundaryZero).stt.radioIgnored = s.stt.radioIgnored ∧ (s.boundaryZero).fpl = s.fpl
      ∧ (s.boundaryZero).rck.deviceTime = s.rck.deviceTime ∧ (s.boundaryZero).rck.timeRunning = s.rck.timeRunning
      ∧ (s.boundaryZero).rck.skipped = s.rck.skipped ∧ (s.boundaryZero).rck.reportsSent = s.rck.reportsSent
      ∧ (s.boundaryZero).rck.reportsSkipped = s.rck.reportsSkipped ∧ (s.boundaryZero).sel.active = s.sel.active
      ∧ (s.boundaryZero).sel.prompt = s.sel.prompt ∧ (s.boundaryZero).sel.poll = s.sel.poll
      ∧ (s.boundaryZero).sel.choice = s.sel.choice ∧ (s.boundaryZero).ord = s.ord ∧ (s.boundaryZero).mgd = s.mgd
      ∧ (s.boundaryZero).mod = s.mod ∧ (s.boundaryZero).resetN = s.resetN ∧ (s.boundaryZero).pending = s.pending
      ∧ (∀ j, (s.boundaryZero).lanesOf j = s.lanesOf j) ∧ (∀ j m, (s.boundaryZero).lane j m = s.lane j m)
      ∧ (s.boundaryZero).radioFree = s.radioFree ∧ (s.boundaryZero).outFree = s.outFree := by
  unfold State.boundaryZero
  and_intros <;> intros <;> (try dsimp only) <;> (repeat' split)
    <;> first | (simp; done) | simp [State.station, State.lane, State.lanesOf, State.radioFree, State.outFree]

@[simp] theorem makeRoundBoundary_keeps (s : State) :
    (s.makeRoundBoundary).rli = s.rli ∧ (s.makeRoundBoundary).stt.linkNotes = s.stt.linkNotes
      ∧ (s.makeRoundBoundary).stt.radioIgnored = s.stt.radioIgnored ∧ (s.makeRoundBoundary).fpl = s.fpl
      ∧ (s.makeRoundBoundary).rck.deviceTime = s.rck.deviceTime
      ∧ (s.makeRoundBoundary).rck.timeRunning = s.rck.timeRunning
      ∧ (s.makeRoundBoundary).rck.clocksRunning = s.rck.clocksRunning ∧ (s.makeRoundBoundary).ord = s.ord
      ∧ (s.makeRoundBoundary).mgd = s.mgd ∧ (s.makeRoundBoundary).mod = s.mod
      ∧ (s.makeRoundBoundary).resetN = s.resetN ∧ (s.makeRoundBoundary).pending = s.pending
      ∧ (∀ j, (s.makeRoundBoundary).lanesOf j = s.lanesOf j) ∧ (∀ j m, (s.makeRoundBoundary).lane j m = s.lane j m)
      ∧ (s.makeRoundBoundary).radioFree = s.radioFree := by
  unfold State.makeRoundBoundary
  and_intros <;> intros <;> (try dsimp only) <;> (repeat' split)
    <;> first | (simp; done) | simp [State.station, State.lane, State.lanesOf, State.radioFree, State.outFree]

@[simp] theorem makePromptBoundary_keeps (s : State) :
    (s.makePromptBoundary).cli = s.cli ∧ (s.makePromptBoundary).rli = s.rli ∧ (s.makePromptBoundary).stt = s.stt
      ∧ (s.makePromptBoundary).fpl = s.fpl ∧ (s.makePromptBoundary).rck.deviceTime = s.rck.deviceTime
      ∧ (s.makePromptBoundary).rck.timeRunning = s.rck.timeRunning
      ∧ (s.makePromptBoundary).rck.clocksRunning = s.rck.clocksRunning
      ∧ (s.makePromptBoundary).rck.round = s.rck.round ∧ (s.makePromptBoundary).rck.lastRoundAt = s.rck.lastRoundAt
      ∧ (s.makePromptBoundary).rck.nextRoundAt = s.rck.nextRoundAt
      ∧ (s.makePromptBoundary).rck.figures = s.rck.figures ∧ (s.makePromptBoundary).rck.promptUsed = s.rck.promptUsed
      ∧ (s.makePromptBoundary).rck.postscaler = s.rck.postscaler ∧ (s.makePromptBoundary).rck.skipped = s.rck.skipped
      ∧ (s.makePromptBoundary).rck.reportsSent = s.rck.reportsSent
      ∧ (s.makePromptBoundary).rck.reportsSkipped = s.rck.reportsSkipped ∧ (s.makePromptBoundary).coh = s.coh
      ∧ (s.makePromptBoundary).sel.groupDue = s.sel.groupDue
      ∧ (s.makePromptBoundary).sel.groupBudget = s.sel.groupBudget
      ∧ (s.makePromptBoundary).sel.groupAllot = s.sel.groupAllot ∧ (s.makePromptBoundary).ord = s.ord
      ∧ (s.makePromptBoundary).mgd = s.mgd ∧ (s.makePromptBoundary).mod = s.mod
      ∧ (s.makePromptBoundary).resetN = s.resetN ∧ (s.makePromptBoundary).pending = s.pending
      ∧ (∀ j, (s.makePromptBoundary).station j = s.station j) ∧ (∀ j, (s.makePromptBoundary).lanesOf j = s.lanesOf j)
      ∧ (∀ j m, (s.makePromptBoundary).lane j m = s.lane j m) ∧ (∀ k, (s.makePromptBoundary).cohort k = s.cohort k)
      ∧ (s.makePromptBoundary).radioFree = s.radioFree ∧ (s.makePromptBoundary).outFree = s.outFree := by
  unfold State.makePromptBoundary
  and_intros <;> intros <;> (try dsimp only) <;> (repeat' split)
    <;> first | (simp; done) | simp [State.station, State.lane, State.lanesOf, State.radioFree, State.outFree]

@[simp] theorem clearFplCounters_keeps (s : State) :
    (s.clearFplCounters).cli = s.cli ∧ (s.clearFplCounters).rli = s.rli ∧ (s.clearFplCounters).stt = s.stt
      ∧ (s.clearFplCounters).fpl.freeEntries = s.fpl.freeEntries ∧ (s.clearFplCounters).fpl.lanes = s.fpl.lanes
      ∧ (s.clearFplCounters).fpl.expiry = s.fpl.expiry ∧ (s.clearFplCounters).fpl.returnList = s.fpl.returnList
      ∧ (s.clearFplCounters).fpl.nextSequence = s.fpl.nextSequence ∧ (s.clearFplCounters).rck = s.rck
      ∧ (s.clearFplCounters).coh = s.coh ∧ (s.clearFplCounters).sel = s.sel ∧ (s.clearFplCounters).ord = s.ord
      ∧ (s.clearFplCounters).mgd = s.mgd ∧ (s.clearFplCounters).mod = s.mod ∧ (s.clearFplCounters).resetN = s.resetN
      ∧ (s.clearFplCounters).pending = s.pending ∧ (∀ j, (s.clearFplCounters).station j = s.station j)
      ∧ (∀ j, (s.clearFplCounters).lanesOf j = s.lanesOf j) ∧ (∀ j m, (s.clearFplCounters).lane j m = s.lane j m)
      ∧ (∀ k, (s.clearFplCounters).cohort k = s.cohort k) ∧ (s.clearFplCounters).radioFree = s.radioFree
      ∧ (s.clearFplCounters).outFree = s.outFree := by
  unfold State.clearFplCounters
  and_intros <;> intros <;> (try dsimp only) <;> (repeat' split)
    <;> first | (simp; done) | simp [State.station, State.lane, State.lanesOf, State.radioFree, State.outFree]

@[simp] theorem clearSelectorLists_keeps (s : State) :
    (s.clearSelectorLists).cli = s.cli ∧ (s.clearSelectorLists).rli = s.rli ∧ (s.clearSelectorLists).stt = s.stt
      ∧ (s.clearSelectorLists).fpl = s.fpl ∧ (s.clearSelectorLists).rck = s.rck ∧ (s.clearSelectorLists).coh = s.coh
      ∧ (s.clearSelectorLists).sel.groupBudget = s.sel.groupBudget
      ∧ (s.clearSelectorLists).sel.promptBudget = s.sel.promptBudget
      ∧ (s.clearSelectorLists).sel.groupAllot = s.sel.groupAllot
      ∧ (s.clearSelectorLists).sel.promptAllot = s.sel.promptAllot ∧ (s.clearSelectorLists).sel.choice = s.sel.choice
      ∧ (s.clearSelectorLists).ord = s.ord ∧ (s.clearSelectorLists).mgd = s.mgd ∧ (s.clearSelectorLists).mod = s.mod
      ∧ (s.clearSelectorLists).resetN = s.resetN ∧ (s.clearSelectorLists).pending = s.pending
      ∧ (∀ j, (s.clearSelectorLists).station j = s.station j) ∧ (∀ j, (s.clearSelectorLists).lanesOf j = s.lanesOf j)
      ∧ (∀ j m, (s.clearSelectorLists).lane j m = s.lane j m) ∧ (∀ k, (s.clearSelectorLists).cohort k = s.cohort k)
      ∧ (s.clearSelectorLists).radioFree = s.radioFree ∧ (s.clearSelectorLists).outFree = s.outFree := by
  unfold State.clearSelectorLists
  and_intros <;> intros <;> (try dsimp only) <;> (repeat' split)
    <;> first | (simp; done) | simp [State.station, State.lane, State.lanesOf, State.radioFree, State.outFree]

@[simp] theorem softResetClocks_keeps (s : State) :
    (s.softResetClocks).cli = s.cli ∧ (s.softResetClocks).rli = s.rli ∧ (s.softResetClocks).stt = s.stt
      ∧ (s.softResetClocks).fpl = s.fpl ∧ (s.softResetClocks).rck.deviceTime = s.rck.deviceTime
      ∧ (s.softResetClocks).rck.timeRunning = s.rck.timeRunning ∧ (s.softResetClocks).rck.round = s.rck.round
      ∧ (s.softResetClocks).rck.lastRoundAt = s.rck.lastRoundAt
      ∧ (s.softResetClocks).rck.nextRoundAt = s.rck.nextRoundAt
      ∧ (s.softResetClocks).rck.promptPeriod = s.rck.promptPeriod
      ∧ (s.softResetClocks).rck.nextPromptAt = s.rck.nextPromptAt ∧ (s.softResetClocks).rck.figures = s.rck.figures
      ∧ (s.softResetClocks).coh = s.coh ∧ (s.softResetClocks).sel = s.sel ∧ (s.softResetClocks).ord = s.ord
      ∧ (s.softResetClocks).mgd = s.mgd ∧ (s.softResetClocks).mod = s.mod ∧ (s.softResetClocks).resetN = s.resetN
      ∧ (s.softResetClocks).pending = s.pending ∧ (∀ j, (s.softResetClocks).station j = s.station j)
      ∧ (∀ j, (s.softResetClocks).lanesOf j = s.lanesOf j) ∧ (∀ j m, (s.softResetClocks).lane j m = s.lane j m)
      ∧ (∀ k, (s.softResetClocks).cohort k = s.cohort k) ∧ (s.softResetClocks).radioFree = s.radioFree
      ∧ (s.softResetClocks).outFree = s.outFree := by
  unfold State.softResetClocks
  and_intros <;> intros <;> (try dsimp only) <;> (repeat' split)
    <;> first | (simp; done) | simp [State.station, State.lane, State.lanesOf, State.radioFree, State.outFree]

@[simp] theorem clearMgdCounters_keeps (s : State) :
    (s.clearMgdCounters).cli = s.cli ∧ (s.clearMgdCounters).rli = s.rli ∧ (s.clearMgdCounters).stt = s.stt
      ∧ (s.clearMgdCounters).fpl = s.fpl ∧ (s.clearMgdCounters).rck = s.rck ∧ (s.clearMgdCounters).coh = s.coh
      ∧ (s.clearMgdCounters).sel = s.sel ∧ (s.clearMgdCounters).ord = s.ord
      ∧ (s.clearMgdCounters).mgd.freeNow = s.mgd.freeNow ∧ (s.clearMgdCounters).mgd.blanking = s.mgd.blanking
      ∧ (s.clearMgdCounters).mgd.capture = s.mgd.capture ∧ (s.clearMgdCounters).mod = s.mod
      ∧ (s.clearMgdCounters).resetN = s.resetN ∧ (s.clearMgdCounters).pending = s.pending
      ∧ (∀ j, (s.clearMgdCounters).station j = s.station j) ∧ (∀ j, (s.clearMgdCounters).lanesOf j = s.lanesOf j)
      ∧ (∀ j m, (s.clearMgdCounters).lane j m = s.lane j m) ∧ (∀ k, (s.clearMgdCounters).cohort k = s.cohort k)
      ∧ (s.clearMgdCounters).radioFree = s.radioFree ∧ (s.clearMgdCounters).outFree = s.outFree := by
  unfold State.clearMgdCounters
  and_intros <;> intros <;> (try dsimp only) <;> (repeat' split)
    <;> first | (simp; done) | simp [State.station, State.lane, State.lanesOf, State.radioFree, State.outFree]

@[simp] theorem clearLinkCounters_keeps (s : State) :
    (s.clearLinkCounters).cli.inbound = s.cli.inbound ∧ (s.clearLinkCounters).cli.outbound = s.cli.outbound
      ∧ (s.clearLinkCounters).cli.transaction = s.cli.transaction ∧ (s.clearLinkCounters).cli.sdo = s.cli.sdo
      ∧ (s.clearLinkCounters).cli.backlog = s.cli.backlog ∧ (s.clearLinkCounters).cli.pulse = s.cli.pulse
      ∧ (s.clearLinkCounters).rli.inbound = s.rli.inbound ∧ (s.clearLinkCounters).rli.arrival = s.rli.arrival
      ∧ (s.clearLinkCounters).rli.sending = s.rli.sending ∧ (s.clearLinkCounters).rli.rlTx = s.rli.rlTx
      ∧ (s.clearLinkCounters).rli.outbound = s.rli.outbound ∧ (s.clearLinkCounters).stt = s.stt
      ∧ (s.clearLinkCounters).fpl = s.fpl ∧ (s.clearLinkCounters).rck = s.rck ∧ (s.clearLinkCounters).coh = s.coh
      ∧ (s.clearLinkCounters).sel = s.sel ∧ (s.clearLinkCounters).ord = s.ord ∧ (s.clearLinkCounters).mgd = s.mgd
      ∧ (s.clearLinkCounters).mod = s.mod ∧ (s.clearLinkCounters).resetN = s.resetN
      ∧ (s.clearLinkCounters).pending = s.pending ∧ (∀ j, (s.clearLinkCounters).station j = s.station j)
      ∧ (∀ j, (s.clearLinkCounters).lanesOf j = s.lanesOf j) ∧ (∀ j m, (s.clearLinkCounters).lane j m = s.lane j m)
      ∧ (∀ k, (s.clearLinkCounters).cohort k = s.cohort k) ∧ (s.clearLinkCounters).radioFree = s.radioFree
      ∧ (s.clearLinkCounters).outFree = s.outFree := by
  unfold State.clearLinkCounters
  and_intros <;> intros <;> (try dsimp only) <;> (repeat' split)
    <;> first | (simp; done) | simp [State.station, State.lane, State.lanesOf, State.radioFree, State.outFree]

@[simp] theorem softResetMode_keeps (s : State) :
    (s.softResetMode).cli = s.cli ∧ (s.softResetMode).rli = s.rli ∧ (s.softResetMode).stt = s.stt
      ∧ (s.softResetMode).fpl = s.fpl ∧ (s.softResetMode).rck = s.rck ∧ (s.softResetMode).coh = s.coh
      ∧ (s.softResetMode).sel = s.sel ∧ (s.softResetMode).ord = s.ord ∧ (s.softResetMode).mgd = s.mgd
      ∧ (s.softResetMode).mod.config = s.mod.config ∧ (s.softResetMode).mod.configValid = s.mod.configValid
      ∧ (s.softResetMode).resetN = s.resetN ∧ (s.softResetMode).pending = s.pending
      ∧ (∀ j, (s.softResetMode).station j = s.station j) ∧ (∀ j, (s.softResetMode).lanesOf j = s.lanesOf j)
      ∧ (∀ j m, (s.softResetMode).lane j m = s.lane j m) ∧ (∀ k, (s.softResetMode).cohort k = s.cohort k)
      ∧ (s.softResetMode).radioFree = s.radioFree ∧ (s.softResetMode).outFree = s.outFree := by
  unfold State.softResetMode
  and_intros <;> intros <;> (try dsimp only) <;> (repeat' split)
    <;> first | (simp; done) | simp [State.station, State.lane, State.lanesOf, State.radioFree, State.outFree]

@[simp] theorem softResetBlocks_keeps (s : State) :
    (s.softResetBlocks).cli.inbound = s.cli.inbound ∧ (s.softResetBlocks).cli.outbound = s.cli.outbound
      ∧ (s.softResetBlocks).cli.transaction = s.cli.transaction ∧ (s.softResetBlocks).cli.sdo = s.cli.sdo
      ∧ (s.softResetBlocks).cli.backlog = s.cli.backlog ∧ (s.softResetBlocks).cli.pulse = s.cli.pulse
      ∧ (s.softResetBlocks).rli.inbound = s.rli.inbound ∧ (s.softResetBlocks).rli.arrival = s.rli.arrival
      ∧ (s.softResetBlocks).rli.sending = s.rli.sending ∧ (s.softResetBlocks).rli.rlTx = s.rli.rlTx
      ∧ (s.softResetBlocks).rli.outbound = s.rli.outbound ∧ (s.softResetBlocks).stt.linkNotes = s.stt.linkNotes
      ∧ (s.softResetBlocks).fpl.freeEntries = s.fpl.freeEntries ∧ (s.softResetBlocks).fpl.lanes = s.fpl.lanes
      ∧ (s.softResetBlocks).fpl.expiry = s.fpl.expiry ∧ (s.softResetBlocks).fpl.returnList = s.fpl.returnList
      ∧ (s.softResetBlocks).fpl.nextSequence = s.fpl.nextSequence
      ∧ (s.softResetBlocks).rck.deviceTime = s.rck.deviceTime
      ∧ (s.softResetBlocks).rck.timeRunning = s.rck.timeRunning ∧ (s.softResetBlocks).rck.round = s.rck.round
      ∧ (s.softResetBlocks).rck.lastRoundAt = s.rck.lastRoundAt
      ∧ (s.softResetBlocks).rck.nextRoundAt = s.rck.nextRoundAt
      ∧ (s.softResetBlocks).rck.promptPeriod = s.rck.promptPeriod
      ∧ (s.softResetBlocks).rck.nextPromptAt = s.rck.nextPromptAt ∧ (s.softResetBlocks).rck.figures = s.rck.figures
      ∧ (s.softResetBlocks).sel.groupBudget = s.sel.groupBudget
      ∧ (s.softResetBlocks).sel.promptBudget = s.sel.promptBudget
      ∧ (s.softResetBlocks).sel.groupAllot = s.sel.groupAllot
      ∧ (s.softResetBlocks).sel.promptAllot = s.sel.promptAllot ∧ (s.softResetBlocks).sel.choice = s.sel.choice
      ∧ (s.softResetBlocks).ord = s.ord ∧ (s.softResetBlocks).mgd.freeNow = s.mgd.freeNow
      ∧ (s.softResetBlocks).mgd.blanking = s.mgd.blanking ∧ (s.softResetBlocks).mgd.capture = s.mgd.capture
      ∧ (s.softResetBlocks).mod.config = s.mod.config ∧ (s.softResetBlocks).mod.configValid = s.mod.configValid
      ∧ (s.softResetBlocks).resetN = s.resetN ∧ (s.softResetBlocks).pending = s.pending
      ∧ (∀ j, (s.softResetBlocks).lanesOf j = s.lanesOf j) ∧ (∀ j m, (s.softResetBlocks).lane j m = s.lane j m)
      ∧ (s.softResetBlocks).radioFree = s.radioFree ∧ (s.softResetBlocks).outFree = s.outFree := by
  unfold State.softResetBlocks
  and_intros <;> intros <;> (try dsimp only) <;> (repeat' split)
    <;> first | (simp; done) | simp [State.station, State.lane, State.lanesOf, State.radioFree, State.outFree]

@[simp] theorem softReset_keeps (s : State) :
    (s.softReset).cli.inbound = s.cli.inbound ∧ (s.softReset).cli.outbound = s.cli.outbound
      ∧ (s.softReset).cli.transaction = s.cli.transaction ∧ (s.softReset).cli.sdo = s.cli.sdo
      ∧ (s.softReset).cli.backlog = s.cli.backlog ∧ (s.softReset).cli.pulse = s.cli.pulse
      ∧ (s.softReset).rli.inbound = s.rli.inbound ∧ (s.softReset).rli.arrival = s.rli.arrival
      ∧ (s.softReset).rli.sending = s.rli.sending ∧ (s.softReset).rli.rlTx = s.rli.rlTx
      ∧ (s.softReset).fpl.freeEntries = s.fpl.freeEntries ∧ (s.softReset).fpl.nextSequence = s.fpl.nextSequence
      ∧ (s.softReset).rck.deviceTime = s.rck.deviceTime ∧ (s.softReset).rck.timeRunning = s.rck.timeRunning
      ∧ (s.softReset).rck.round = s.rck.round ∧ (s.softReset).rck.lastRoundAt = s.rck.lastRoundAt
      ∧ (s.softReset).rck.nextRoundAt = s.rck.nextRoundAt ∧ (s.softReset).rck.promptPeriod = s.rck.promptPeriod
      ∧ (s.softReset).rck.nextPromptAt = s.rck.nextPromptAt ∧ (s.softReset).rck.figures = s.rck.figures
      ∧ (s.softReset).sel.groupBudget = s.sel.groupBudget ∧ (s.softReset).sel.promptBudget = s.sel.promptBudget
      ∧ (s.softReset).sel.groupAllot = s.sel.groupAllot ∧ (s.softReset).sel.promptAllot = s.sel.promptAllot
      ∧ (s.softReset).sel.choice = s.sel.choice ∧ (s.softReset).ord.nextId = s.ord.nextId
      ∧ (s.softReset).mgd.freeNow = s.mgd.freeNow ∧ (s.softReset).mgd.blanking = s.mgd.blanking
      ∧ (s.softReset).mgd.capture = s.mgd.capture ∧ (s.softReset).mod.config = s.mod.config
      ∧ (s.softReset).mod.configValid = s.mod.configValid ∧ (s.softReset).resetN = s.resetN
      ∧ (s.softReset).pending = s.pending ∧ (s.softReset).outFree = s.outFree := by
  rw [State.softReset]
  simp

@[simp] theorem releaseStation_keeps (s : State) (i : Nat) :
    (s.releaseStation i).cli = s.cli ∧ (s.releaseStation i).rli.inbound = s.rli.inbound
      ∧ (s.releaseStation i).rli.arrival = s.rli.arrival ∧ (s.releaseStation i).rli.sending = s.rli.sending
      ∧ (s.releaseStation i).rli.rlTx = s.rli.rlTx ∧ (s.releaseStation i).rli.rlMalformed = s.rli.rlMalformed
      ∧ (s.releaseStation i).rli.rlOverrun = s.rli.rlOverrun
      ∧ (s.releaseStation i).stt.radioIgnored = s.stt.radioIgnored ∧ (s.releaseStation i).fpl = s.fpl
      ∧ (s.releaseStation i).rck = s.rck ∧ (s.releaseStation i).coh = s.coh
      ∧ (s.releaseStation i).sel.groupDue = s.sel.groupDue ∧ (s.releaseStation i).sel.groupBudget = s.sel.groupBudget
      ∧ (s.releaseStation i).sel.promptBudget = s.sel.promptBudget
      ∧ (s.releaseStation i).sel.groupAllot = s.sel.groupAllot
      ∧ (s.releaseStation i).sel.promptAllot = s.sel.promptAllot ∧ (s.releaseStation i).sel.choice = s.sel.choice
      ∧ (s.releaseStation i).ord.outstanding = s.ord.outstanding
      ∧ (s.releaseStation i).ord.quarantine = s.ord.quarantine ∧ (s.releaseStation i).ord.nextId = s.ord.nextId
      ∧ (s.releaseStation i).ord.lossCount = s.ord.lossCount ∧ (s.releaseStation i).ord.counters = s.ord.counters
      ∧ (s.releaseStation i).mgd = s.mgd ∧ (s.releaseStation i).mod = s.mod ∧ (s.releaseStation i).resetN = s.resetN
      ∧ (s.releaseStation i).pending = s.pending ∧ (∀ j, (s.releaseStation i).lanesOf j = s.lanesOf j)
      ∧ (∀ j m, (s.releaseStation i).lane j m = s.lane j m) ∧ (∀ k, (s.releaseStation i).cohort k = s.cohort k)
      ∧ (s.releaseStation i).outFree = s.outFree := by
  unfold State.releaseStation
  and_intros <;> intros <;> (try dsimp only) <;> (repeat' split)
    <;> first | (simp; done) | simp [State.station, State.lane, State.lanesOf, State.radioFree, State.outFree]

@[simp] theorem applyHold_keeps (s : State) (i : Nat) (v : Bool) :
    (s.applyHold i v).cli = s.cli ∧ (s.applyHold i v).rli = s.rli ∧ (s.applyHold i v).stt.linkNotes = s.stt.linkNotes
      ∧ (s.applyHold i v).stt.radioIgnored = s.stt.radioIgnored ∧ (s.applyHold i v).fpl = s.fpl
      ∧ (s.applyHold i v).rck = s.rck ∧ (s.applyHold i v).coh = s.coh
      ∧ (s.applyHold i v).sel.groupDue = s.sel.groupDue ∧ (s.applyHold i v).sel.groupBudget = s.sel.groupBudget
      ∧ (s.applyHold i v).sel.promptBudget = s.sel.promptBudget ∧ (s.applyHold i v).sel.groupAllot = s.sel.groupAllot
      ∧ (s.applyHold i v).sel.promptAllot = s.sel.promptAllot ∧ (s.applyHold i v).ord = s.ord
      ∧ (s.applyHold i v).mgd = s.mgd ∧ (s.applyHold i v).mod = s.mod ∧ (s.applyHold i v).resetN = s.resetN
      ∧ (s.applyHold i v).pending = s.pending ∧ (∀ j, (s.applyHold i v).lanesOf j = s.lanesOf j)
      ∧ (∀ j m, (s.applyHold i v).lane j m = s.lane j m) ∧ (∀ k, (s.applyHold i v).cohort k = s.cohort k)
      ∧ (s.applyHold i v).radioFree = s.radioFree ∧ (s.applyHold i v).outFree = s.outFree := by
  unfold State.applyHold
  and_intros <;> intros <;> (try dsimp only) <;> (repeat' split)
    <;> first | (simp; done) | simp [State.station, State.lane, State.lanesOf, State.radioFree, State.outFree]

@[simp] theorem offerFrame_keeps (s : State) (f : FrameFields) :
    (s.offerFrame f).1.cli = s.cli ∧ (s.offerFrame f).1.rli = s.rli ∧ (s.offerFrame f).1.stt.linkNotes = s.stt.linkNotes
      ∧ (s.offerFrame f).1.stt.radioIgnored = s.stt.radioIgnored ∧ (s.offerFrame f).1.rck = s.rck
      ∧ (s.offerFrame f).1.coh = s.coh ∧ (s.offerFrame f).1.ord = s.ord ∧ (s.offerFrame f).1.mgd = s.mgd
      ∧ (s.offerFrame f).1.mod = s.mod ∧ (s.offerFrame f).1.resetN = s.resetN
      ∧ (s.offerFrame f).1.pending = s.pending ∧ (s.offerFrame f).1.sel.choice = s.sel.choice := by
  unfold State.offerFrame
  split <;> simp

@[simp] theorem offerFrames_keeps (fs : List FrameFields) (s : State) :
    (s.offerFrames fs).1.cli = s.cli ∧ (s.offerFrames fs).1.rli = s.rli
      ∧ (s.offerFrames fs).1.stt.linkNotes = s.stt.linkNotes
      ∧ (s.offerFrames fs).1.stt.radioIgnored = s.stt.radioIgnored ∧ (s.offerFrames fs).1.rck = s.rck
      ∧ (s.offerFrames fs).1.coh = s.coh ∧ (s.offerFrames fs).1.ord = s.ord ∧ (s.offerFrames fs).1.mgd = s.mgd
      ∧ (s.offerFrames fs).1.mod = s.mod ∧ (s.offerFrames fs).1.resetN = s.resetN
      ∧ (s.offerFrames fs).1.pending = s.pending ∧ (s.offerFrames fs).1.sel.choice = s.sel.choice := by
  induction fs generalizing s with
  | nil => simp [State.offerFrames]
  | cons f fs ih => simp [State.offerFrames, ih]

/-- There is one frame result for each frame record. -/
@[simp] theorem offerFrames_length (fs : List FrameFields) (s : State) : (s.offerFrames fs).2.length = fs.length := by
  induction fs generalizing s with
  | nil => rfl
  | cons f fs ih => simp [State.offerFrames, ih]

/-- What every command's decision leaves as it is. -/
@[simp] theorem decision_keeps (c : Command) (s : State) (body : List Byte) :
    (c.decision s body).1.cli.inbound = s.cli.inbound ∧ (c.decision s body).1.cli.outbound = s.cli.outbound
      ∧ (c.decision s body).1.cli.transaction = s.cli.transaction ∧ (c.decision s body).1.cli.sdo = s.cli.sdo
      ∧ (c.decision s body).1.cli.backlog = s.cli.backlog ∧ (c.decision s body).1.cli.pulse = s.cli.pulse
      ∧ (c.decision s body).1.rli.inbound = s.rli.inbound ∧ (c.decision s body).1.rli.arrival = s.rli.arrival
      ∧ (c.decision s body).1.rli.sending = s.rli.sending ∧ (c.decision s body).1.rli.rlTx = s.rli.rlTx
      ∧ (c.decision s body).1.resetN = s.resetN ∧ (c.decision s body).1.pending = s.pending := by
  cases c <;>
    simp only [Command.decision, decideConfigure, decideStart, decideStop, decideAbort, decideReset, decideQuiet,
      decideResume, decideStatus, decideAdmit, decideRelease, decideSetWeight, decideHold, decideEnqueue, decideFlush,
      decideSetCohort, decideQuery, accept, refuse] <;>
    (repeat' split) <;> simp 

/-! ## Records from the MAC -/

@[simp] theorem fillCapture_keeps (s : State) (c : AlertCause) :
    (s.fillCapture c).cli = s.cli ∧ (s.fillCapture c).rli = s.rli ∧ (s.fillCapture c).stt = s.stt
      ∧ (s.fillCapture c).fpl = s.fpl ∧ (s.fillCapture c).rck = s.rck ∧ (s.fillCapture c).coh = s.coh
      ∧ (s.fillCapture c).sel = s.sel ∧ (s.fillCapture c).ord = s.ord ∧ (s.fillCapture c).mgd.freeNow = s.mgd.freeNow
      ∧ (s.fillCapture c).mgd.blanking = s.mgd.blanking ∧ (s.fillCapture c).mgd.mediumAlerts = s.mgd.mediumAlerts
      ∧ (s.fillCapture c).mgd.mediumReports = s.mgd.mediumReports
      ∧ (s.fillCapture c).mgd.reportsBlanked = s.mgd.reportsBlanked
      ∧ (s.fillCapture c).mgd.linkRaises = s.mgd.linkRaises
      ∧ (s.fillCapture c).mgd.mediumIgnored = s.mgd.mediumIgnored ∧ (s.fillCapture c).mod = s.mod
      ∧ (s.fillCapture c).resetN = s.resetN ∧ (s.fillCapture c).pending = s.pending
      ∧ (∀ j, (s.fillCapture c).station j = s.station j) ∧ (∀ j, (s.fillCapture c).lanesOf j = s.lanesOf j)
      ∧ (∀ j m, (s.fillCapture c).lane j m = s.lane j m) ∧ (∀ k, (s.fillCapture c).cohort k = s.cohort k)
      ∧ (s.fillCapture c).radioFree = s.radioFree ∧ (s.fillCapture c).outFree = s.outFree := by
  unfold State.fillCapture
  and_intros <;> intros <;> (try dsimp only) <;> (repeat' split)
    <;> first | (simp; done) | simp [State.station, State.lane, State.lanesOf, State.radioFree, State.outFree]

@[simp] theorem endDoze_keeps (s : State) (i : Nat) :
    (s.endDoze i).cli = s.cli ∧ (s.endDoze i).rli = s.rli ∧ (s.endDoze i).stt.linkNotes = s.stt.linkNotes
      ∧ (s.endDoze i).stt.radioIgnored = s.stt.radioIgnored ∧ (s.endDoze i).fpl = s.fpl ∧ (s.endDoze i).rck = s.rck
      ∧ (s.endDoze i).coh = s.coh ∧ (s.endDoze i).sel.groupDue = s.sel.groupDue
      ∧ (s.endDoze i).sel.groupBudget = s.sel.groupBudget ∧ (s.endDoze i).sel.promptBudget = s.sel.promptBudget
      ∧ (s.endDoze i).sel.groupAllot = s.sel.groupAllot ∧ (s.endDoze i).sel.promptAllot = s.sel.promptAllot
      ∧ (s.endDoze i).sel.choice = s.sel.choice ∧ (s.endDoze i).ord = s.ord ∧ (s.endDoze i).mgd = s.mgd
      ∧ (s.endDoze i).mod = s.mod ∧ (s.endDoze i).resetN = s.resetN ∧ (s.endDoze i).pending = s.pending
      ∧ (∀ j, (s.endDoze i).lanesOf j = s.lanesOf j) ∧ (∀ j m, (s.endDoze i).lane j m = s.lane j m)
      ∧ (∀ k, (s.endDoze i).cohort k = s.cohort k) ∧ (s.endDoze i).radioFree = s.radioFree
      ∧ (s.endDoze i).outFree = s.outFree := by
  unfold State.endDoze
  and_intros <;> intros <;> (try dsimp only) <;> (repeat' split)
    <;> first | (simp; done) | simp [State.station, State.lane, State.lanesOf, State.radioFree, State.outFree]

@[simp] theorem timeOutOrder_keeps (s : State) (o : Order) :
    (s.timeOutOrder o).cli = s.cli ∧ (s.timeOutOrder o).rli.inbound = s.rli.inbound
      ∧ (s.timeOutOrder o).rli.arrival = s.rli.arrival ∧ (s.timeOutOrder o).rli.sending = s.rli.sending
      ∧ (s.timeOutOrder o).rli.rlTx = s.rli.rlTx ∧ (s.timeOutOrder o).rli.rlMalformed = s.rli.rlMalformed
      ∧ (s.timeOutOrder o).rli.rlOverrun = s.rli.rlOverrun ∧ (s.timeOutOrder o).stt.radioIgnored = s.stt.radioIgnored
      ∧ (s.timeOutOrder o).fpl.freeEntries = s.fpl.freeEntries
      ∧ (s.timeOutOrder o).fpl.nextSequence = s.fpl.nextSequence
      ∧ (s.timeOutOrder o).fpl.framesAccepted = s.fpl.framesAccepted
      ∧ (s.timeOutOrder o).fpl.framesRefused = s.fpl.framesRefused
      ∧ (s.timeOutOrder o).fpl.framesExpired = s.fpl.framesExpired
      ∧ (s.timeOutOrder o).fpl.tokenNotices = s.fpl.tokenNotices
      ∧ (s.timeOutOrder o).rck.deviceTime = s.rck.deviceTime ∧ (s.timeOutOrder o).rck.timeRunning = s.rck.timeRunning
      ∧ (s.timeOutOrder o).rck.round = s.rck.round ∧ (s.timeOutOrder o).rck.lastRoundAt = s.rck.lastRoundAt
      ∧ (s.timeOutOrder o).rck.nextRoundAt = s.rck.nextRoundAt
      ∧ (s.timeOutOrder o).rck.promptPeriod = s.rck.promptPeriod
      ∧ (s.timeOutOrder o).rck.nextPromptAt = s.rck.nextPromptAt ∧ (s.timeOutOrder o).rck.figures = s.rck.figures
      ∧ (s.timeOutOrder o).rck.promptUsed = s.rck.promptUsed ∧ (s.timeOutOrder o).rck.postscaler = s.rck.postscaler
      ∧ (s.timeOutOrder o).rck.skipped = s.rck.skipped ∧ (s.timeOutOrder o).rck.reportsSent = s.rck.reportsSent
      ∧ (s.timeOutOrder o).rck.reportsSkipped = s.rck.reportsSkipped
      ∧ (s.timeOutOrder o).sel.groupBudget = s.sel.groupBudget
      ∧ (s.timeOutOrder o).sel.promptBudget = s.sel.promptBudget
      ∧ (s.timeOutOrder o).sel.groupAllot = s.sel.groupAllot ∧ (s.timeOutOrder o).sel.promptAllot = s.sel.promptAllot
      ∧ (s.timeOutOrder o).ord.nextId = s.ord.nextId ∧ (s.timeOutOrder o).mgd.freeNow = s.mgd.freeNow
      ∧ (s.timeOutOrder o).mgd.blanking = s.mgd.blanking ∧ (s.timeOutOrder o).mgd.capture = s.mgd.capture
      ∧ (s.timeOutOrder o).mgd.mediumAlerts = s.mgd.mediumAlerts
      ∧ (s.timeOutOrder o).mgd.mediumReports = s.mgd.mediumReports
      ∧ (s.timeOutOrder o).mgd.reportsBlanked = s.mgd.reportsBlanked
      ∧ (s.timeOutOrder o).mgd.mediumIgnored = s.mgd.mediumIgnored ∧ (s.timeOutOrder o).mod.config = s.mod.config
      ∧ (s.timeOutOrder o).mod.configValid = s.mod.configValid ∧ (s.timeOutOrder o).mod.alertsSent = s.mod.alertsSent
      ∧ (s.timeOutOrder o).resetN = s.resetN ∧ (s.timeOutOrder o).pending = s.pending
      ∧ (s.timeOutOrder o).outFree = s.outFree := by
  unfold State.timeOutOrder
  and_intros <;> intros <;> (try dsimp only) <;> (repeat' split)
    <;> first | (simp; done) | simp [State.station, State.lane, State.lanesOf, State.radioFree, State.outFree]

end Sys2Proof.Machine
end

