-- ==== Sys2Proof/Laws/Lanes.lean ====
section
/-!
SUPPORT. Lanes that empty (R3) and lanes that are returned (R38, R40, R46): what the lanes, the station records, the
selector lists and the return list read behind them; and the link notes they may form (R6, R183).
-/

namespace Sys2Proof.Machine

/-- The record of a station that comes back into service, and the others' (R13, R56). -/
theorem resumeAs_station (s : State) (i j : Nat) (x : StationState) (hi : i < 512) :
    (s.resumeAs i x).station j
      = if j = i then (s.station j).resumed x s.rck.clocksRunning else s.station j := by
  unfold State.resumeAs
  by_cases h : j = i
  · subst h; rw [updStation_station_self _ _ hi]; simp
  · rw [updStation_station_of_ne _ _ h]; simp [h]

theorem setStationState_station (s : State) (i j : Nat) (x : StationState) (hi : i < 512) :
    (s.setStationState i x).station j = if j = i then { s.station j with state := x } else s.station j := by
  unfold State.setStationState
  rw [updStation_station]
  by_cases h : j = i
  · subst h; simp [hi, Config.stationCount]
  · simp [h, Ne.symm h]

/-- R3, a lane that has become empty: what the station records read. -/
theorem laneEmpty_station (s : State) (i j : Nat) (l : Lane) (hi : i < 512) :
    (s.laneEmpty i l).station j =
      if j = i ∧ i ≠ 0 ∧ (s.station i).state = .backlogged ∧ (s.lanesOf i).allEmpty = true
      then { s.station j with state := .idle } else s.station j := by
  unfold State.laneEmpty
  by_cases h0 : i = 0
  · simp [h0]
  · rw [if_neg h0]
    cases hst : (s.station i).state <;> simp [h0]
    · have e1 : ((if l = Lane.prompt then s.removePrompt i else s).lanesOf i) = s.lanesOf i := by split <;> simp
      have e2 : ∀ k, ((if l = Lane.prompt then s.removePrompt i else s).station k) = s.station k := by intro k; split <;> simp
      rw [e1]
      split
      · rename_i ha
        simp only [removeActive_keeps, ha, and_true]
        rw [setStationState_station _ _ _ _ hi, e2]
      · rename_i ha
        simp [ha, e2]
    · split <;> simp

/-- R3, a lane that has become empty: what SEL's lists hold. -/
theorem laneEmpty_active (s : State) (i : Nat) (l : Lane) :
    (s.laneEmpty i l).sel.active =
      if i ≠ 0 ∧ (s.station i).state = .backlogged ∧ (s.lanesOf i).allEmpty = true
      then s.sel.active.erase i else s.sel.active := by
  unfold State.laneEmpty
  by_cases h0 : i = 0
  · simp [h0]
  · rw [if_neg h0]
    cases hst : (s.station i).state <;> simp [h0]
    · have e1 : ((if l = Lane.prompt then s.removePrompt i else s).lanesOf i) = s.lanesOf i := by split <;> simp
      have e2 : ((if l = Lane.prompt then s.removePrompt i else s).sel.active) = s.sel.active := by split <;> simp
      rw [e1]
      split
      · rename_i ha
        simp [State.removeActive, e2]
      · exact e2
    · split <;> simp

theorem laneEmpty_prompt (s : State) (i : Nat) (l : Lane) :
    (s.laneEmpty i l).sel.prompt =
      if i ≠ 0 ∧ (s.station i).state = .backlogged ∧ l = .prompt
      then s.sel.prompt.erase i else s.sel.prompt := by
  unfold State.laneEmpty
  by_cases h0 : i = 0
  · simp [h0]
  · rw [if_neg h0]
    cases hst : (s.station i).state <;> simp [h0]
    · by_cases hl : l = .prompt
      · simp [hl]; split <;> simp [State.removePrompt]
      · simp [hl]; split <;> simp
    · split <;> simp

theorem laneEmpty_poll (s : State) (i : Nat) (l : Lane) :
    (s.laneEmpty i l).sel.poll =
      if i ≠ 0 ∧ (s.station i).state = .dozing ∧ (s.lanesOf i).allEmpty = true
      then s.sel.poll.erase i else s.sel.poll := by
  unfold State.laneEmpty
  by_cases h0 : i = 0
  · simp [h0]
  · rw [if_neg h0]
    cases hst : (s.station i).state <;> simp [h0]
    · split <;> split <;> simp
    · by_cases ha : (s.lanesOf i).allEmpty = true
      · by_cases hp : i ∈ s.sel.poll
        · simp [ha, hp, State.removePoll]
        · simp [ha, hp]; rw [List.erase_of_not_mem hp]
      · simp [ha]

theorem laneEmpty_groupDue (s : State) (i : Nat) (l : Lane) :
    (s.laneEmpty i l).sel.groupDue = if i = 0 then false else s.sel.groupDue := by
  unfold State.laneEmpty
  by_cases h0 : i = 0
  · simp [h0, State.setGroupDue]
  · rw [if_neg h0, if_neg h0]
    cases hst : (s.station i).state <;> simp
    · split <;> split <;> simp
    · split <;> simp

/-- R3, a lane that has become empty: the radio side moves only for a withdrawn grant. -/
theorem laneEmpty_radio (s : State) (i : Nat) (l : Lane)
    (h : i = 0 ∨ (s.station i).state ≠ .dozing ∨ (s.lanesOf i).allEmpty = false ∨ i ∉ s.sel.poll) :
    (s.laneEmpty i l).stt.linkNotes = s.stt.linkNotes ∧ (s.laneEmpty i l).rli = s.rli
      ∧ (s.laneEmpty i l).ord = s.ord := by
  unfold State.laneEmpty
  by_cases h0 : i = 0
  · simp [h0]
  · rw [if_neg h0]
    cases hst : (s.station i).state <;> simp
    · split <;> split <;> simp
    · rw [if_neg]
      · simp
      · rcases h with h | h | h | h <;> simp_all

/-- A returned lane: what the lanes hold. -/
theorem returnLane_lane (s : State) (i j : Nat) (x : FrameResult) (l k : Lane) :
    (s.returnLane i x l).lane j k = if (j, k) = (i, l) then [] else s.lane j k := by
  unfold State.returnLane
  split
  · rename_i h
    split
    · rename_i e; simp only [Prod.mk.injEq] at e; rw [e.1, e.2]; exact h
    · rfl
  · rename_i h
    rw [lane_congr (s := (s.setLane i l []))]
    · rw [setLane_lane]
      by_cases e : (j, k) = (i, l)
      · have hi := lt_of_lane_ne_nil h
        simp only [Prod.mk.injEq] at e
        simp [e.1, e.2, hi, Config.stationCount]
      · simp only [e, false_and, if_false]
    · simp

theorem returnLane_returnList (s : State) (i : Nat) (x : FrameResult) (l : Lane) :
    (s.returnLane i x l).fpl.returnList = s.fpl.returnList ++ withResult (s.lane i l) x := by
  unfold State.returnLane
  split
  · rename_i h; simp [h, withResult]
  · rename_i h; simp [State.returnFrames]

theorem returnLane_lanesOf (s : State) (i j : Nat) (x : FrameResult) (l : Lane) :
    (s.returnLane i x l).lanesOf j = if j = i then (s.lanesOf i).set l [] else s.lanesOf j := by
  apply Lanes.ext_get
  intro k
  show State.lane _ j k = _
  rw [returnLane_lane]
  by_cases h : j = i
  · subst h
    simp
    rfl
  · simp [h]
    rfl

/-- A returned lane: what the station records read. -/
theorem returnLane_station (s : State) (i j : Nat) (x : FrameResult) (l : Lane) :
    (s.returnLane i x l).station j =
      if j = i ∧ i ≠ 0 ∧ (s.station i).state = .backlogged ∧ s.lane i l ≠ []
        ∧ ((s.lanesOf i).set l []).allEmpty = true
      then { s.station j with state := .idle } else s.station j := by
  have hla := returnLane_lanesOf s i i x l
  unfold State.returnLane at *
  split at hla
  · rename_i h; simp [h]
  · rename_i h
    have hi := lt_of_lane_ne_nil h
    have hne : s.lane i l ≠ [] := h
    rw [laneEmpty_station _ _ _ _ hi]
    simp only [laneEmpty_keeps] at hla
    simp only [hla, returnFrames_keeps, updFpl_station, setLane_station, if_true]
    simp [hne]

/-- A returned lane: what the active list holds. -/
theorem returnLane_active (s : State) (i : Nat) (x : FrameResult) (l : Lane) :
    (s.returnLane i x l).sel.active =
      if i ≠ 0 ∧ (s.station i).state = .backlogged ∧ s.lane i l ≠ [] ∧ ((s.lanesOf i).set l []).allEmpty = true
      then s.sel.active.erase i else s.sel.active := by
  have hla := returnLane_lanesOf s i i x l
  unfold State.returnLane at *
  split at hla
  · rename_i h; simp [h]
  · rename_i h
    have hne : s.lane i l ≠ [] := h
    rw [laneEmpty_active]
    simp only [laneEmpty_keeps] at hla
    simp only [hla, returnFrames_keeps, updFpl_station, setLane_station, if_true]
    simp [hne]

/-- A returned lane: what the poll list holds. -/
theorem returnLane_poll (s : State) (i : Nat) (x : FrameResult) (l : Lane) :
    (s.returnLane i x l).sel.poll =
      if i ≠ 0 ∧ (s.station i).state = .dozing ∧ s.lane i l ≠ [] ∧ ((s.lanesOf i).set l []).allEmpty = true
      then s.sel.poll.erase i else s.sel.poll := by
  have hla := returnLane_lanesOf s i i x l
  unfold State.returnLane at *
  split at hla
  · rename_i h; simp [h]
  · rename_i h
    have hne : s.lane i l ≠ [] := h
    rw [laneEmpty_poll]
    simp only [laneEmpty_keeps] at hla
    simp only [hla, returnFrames_keeps, updFpl_station, setLane_station, if_true]
    simp [hne]

/-- Returned lanes: what the lanes hold. -/
theorem returnLanes_lane (s : State) (i j : Nat) (x : FrameResult) (ls : List Lane) (k : Lane) :
    (s.returnLanes i x ls).lane j k = if j = i ∧ k ∈ ls then [] else s.lane j k := by
  induction ls generalizing s with
  | nil => simp [State.returnLanes]
  | cons l ls ih =>
    have : s.returnLanes i x (l :: ls) = (s.returnLane i x l).returnLanes i x ls := rfl
    rw [this, ih, returnLane_lane]
    by_cases h : j = i <;> by_cases hk : k = l <;> by_cases hm : k ∈ ls <;> simp [h, hk, hm]

theorem returnLanes_returnList (s : State) (i : Nat) (x : FrameResult) (ls : List Lane) (hn : ls.Nodup) :
    (s.returnLanes i x ls).fpl.returnList = s.fpl.returnList ++ withResult (ls.flatMap (s.lane i)) x := by
  induction ls generalizing s with
  | nil => simp [State.returnLanes, withResult]
  | cons l ls ih =>
    have : s.returnLanes i x (l :: ls) = (s.returnLane i x l).returnLanes i x ls := rfl
    obtain ⟨h1, h2⟩ := List.nodup_cons.mp hn
    rw [this, ih _ h2, returnLane_returnList]
    have : ls.flatMap ((s.returnLane i x l).lane i) = ls.flatMap (s.lane i) := by
      apply List.flatMap_congr
      intro k hk
      rw [returnLane_lane, if_neg]
      rintro e
      simp only [Prod.mk.injEq, true_and] at e
      exact h1 (e ▸ hk)
    rw [this]
    simp [withResult]

/-- Some of the given lanes of a station holds an entry. -/
def State.holdsAny (s : State) (i : Nat) (ls : List Lane) : Bool :=
  ls.any fun l => !(s.lane i l).isEmpty

theorem holdsAny_returnLane (s : State) (i : Nat) (x : FrameResult) (l : Lane) (ls : List Lane)
    (h : ((s.lanesOf i).set l []).allEmpty = true) : (s.returnLane i x l).holdsAny i ls = false := by
  have : ∀ k, (s.returnLane i x l).lane i k = [] := by
    intro k
    have := (Lanes.allEmpty_iff _).mp h k
    rw [show (s.returnLane i x l).lane i k = ((s.returnLane i x l).lanesOf i).get k from rfl, returnLane_lanesOf]
    simpa using this
  simp [State.holdsAny, this]

theorem allEmpty_returnLanes (s : State) (i : Nat) (x : FrameResult) (l : Lane) (ls : List Lane)
    (hall : ((s.lanesOf i).set l []).allEmpty = true) :
    (((s.returnLane i x l).returnLanes i x ls).lanesOf i).allEmpty = true := by
  rw [Lanes.allEmpty_iff]
  intro k
  show State.lane _ i k = []
  rw [returnLanes_lane]
  split
  · rfl
  · show ((s.returnLane i x l).lanesOf i).get k = []
    rw [returnLane_lanesOf]
    simpa using (Lanes.allEmpty_iff _).mp hall k

theorem not_allEmpty_returnLanes (s : State) (i : Nat) (x : FrameResult) (l : Lane) (ls : List Lane)
    (hall : ¬ ((s.lanesOf i).set l []).allEmpty = true) (h5 : ¬ (s.returnLane i x l).holdsAny i ls = true) :
    ¬ (((s.returnLane i x l).returnLanes i x ls).lanesOf i).allEmpty = true := by
  intro hc
  apply hall
  rw [Lanes.allEmpty_iff] at hc ⊢
  intro k
  have := hc k
  rw [show (((s.returnLane i x l).returnLanes i x ls).lanesOf i).get k = State.lane _ i k from rfl,
    returnLanes_lane] at this
  have h7 : (s.returnLane i x l).lane i k = ((s.lanesOf i).set l []).get k := by
    show ((s.returnLane i x l).lanesOf i).get k = _
    rw [returnLane_lanesOf]; simp
  by_cases hk : k ∈ ls
  · have : (s.returnLane i x l).lane i k = [] := by
      simp only [State.holdsAny, List.any_eq_true, not_exists, not_and] at h5
      have := h5 k hk
      simpa using this
    rw [← h7]; exact this
  · rw [if_neg (by simp [hk])] at this
    rw [← h7]; exact this

/-- Returned lanes: what the station records read. -/
theorem returnLanes_station (s : State) (i j : Nat) (x : FrameResult) (ls : List Lane) :
    (s.returnLanes i x ls).station j =
      if j = i ∧ i ≠ 0 ∧ (s.station i).state = .backlogged ∧ s.holdsAny i ls = true
        ∧ ((s.returnLanes i x ls).lanesOf i).allEmpty = true
      then { s.station j with state := .idle } else s.station j := by
  induction ls generalizing s with
  | nil => simp [State.returnLanes, State.holdsAny]
  | cons l ls ih =>
    have e : s.returnLanes i x (l :: ls) = (s.returnLane i x l).returnLanes i x ls := rfl
    rw [e, ih]
    have hj := returnLane_station s i j x l
    have hi := returnLane_station s i i x l
    by_cases hl : s.lane i l = []
    · have e2 : s.returnLane i x l = s := by unfold State.returnLane; rw [hl]
      rw [e2]
      simp [State.holdsAny, hl]
    · by_cases hall : ((s.lanesOf i).set l []).allEmpty = true
      · have h2 := holdsAny_returnLane s i x l ls hall
        have h3 := allEmpty_returnLanes s i x l ls hall
        rw [h2, h3, hj]
        simp [hl, hall, State.holdsAny]
      · have hj' : (s.returnLane i x l).station j = s.station j := by rw [hj, if_neg]; rintro ⟨_, _, _, _, h⟩; exact hall h
        have hi' : (s.returnLane i x l).station i = s.station i := by rw [hi, if_neg]; rintro ⟨_, _, _, _, h⟩; exact hall h
        rw [hj', hi']
        have h4 : s.holdsAny i (l :: ls) = true := by simp [State.holdsAny, hl]
        simp only [h4, true_and]
        by_cases h5 : (s.returnLane i x l).holdsAny i ls = true
        · simp [h5]
        · have h6 := not_allEmpty_returnLanes s i x l ls hall h5
          simp [h5, h6]

/-- Returned lanes: what the active list holds. -/
theorem returnLanes_active (s : State) (i : Nat) (x : FrameResult) (ls : List Lane) :
    (s.returnLanes i x ls).sel.active =
      if i ≠ 0 ∧ (s.station i).state = .backlogged ∧ s.holdsAny i ls = true
        ∧ ((s.returnLanes i x ls).lanesOf i).allEmpty = true
      then s.sel.active.erase i else s.sel.active := by
  induction ls generalizing s with
  | nil => simp [State.returnLanes, State.holdsAny]
  | cons l ls ih =>
    have e : s.returnLanes i x (l :: ls) = (s.returnLane i x l).returnLanes i x ls := rfl
    rw [e, ih]
    have hj := returnLane_active s i x l
    have hi := returnLane_station s i i x l
    by_cases hl : s.lane i l = []
    · have e2 : s.returnLane i x l = s := by unfold State.returnLane; rw [hl]
      rw [e2]
      simp [State.holdsAny, hl]
    · by_cases hall : ((s.lanesOf i).set l []).allEmpty = true
      · have h2 := holdsAny_returnLane s i x l ls hall
        rw [h2, hj, allEmpty_returnLanes s i x l ls hall]
        simp [hl, hall, State.holdsAny]
      · have hj' : (s.returnLane i x l).sel.active = s.sel.active := by
          rw [hj, if_neg]; rintro ⟨_, _, _, h⟩; exact hall h
        have hi' : (s.returnLane i x l).station i = s.station i := by
          rw [hi, if_neg]; rintro ⟨_, _, _, _, h⟩; exact hall h
        rw [hj', hi']
        have h4 : s.holdsAny i (l :: ls) = true := by simp [State.holdsAny, hl]
        simp only [h4, true_and]
        by_cases h5 : (s.returnLane i x l).holdsAny i ls = true
        · simp [h5]
        · simp [h5, not_allEmpty_returnLanes s i x l ls hall h5]

/-- Returned lanes: what the poll list holds. -/
theorem returnLanes_poll (s : State) (i : Nat) (x : FrameResult) (ls : List Lane) :
    (s.returnLanes i x ls).sel.poll =
      if i ≠ 0 ∧ (s.station i).state = .dozing ∧ s.holdsAny i ls = true
        ∧ ((s.returnLanes i x ls).lanesOf i).allEmpty = true
      then s.sel.poll.erase i else s.sel.poll := by
  induction ls generalizing s with
  | nil => simp [State.returnLanes, State.holdsAny]
  | cons l ls ih =>
    have e : s.returnLanes i x (l :: ls) = (s.returnLane i x l).returnLanes i x ls := rfl
    rw [e, ih]
    have hj := returnLane_poll s i x l
    have hi := returnLane_station s i i x l
    by_cases hl : s.lane i l = []
    · have e2 : s.returnLane i x l = s := by unfold State.returnLane; rw [hl]
      rw [e2]
      simp [State.holdsAny, hl]
    · by_cases hall : ((s.lanesOf i).set l []).allEmpty = true
      · have h2 := holdsAny_returnLane s i x l ls hall
        rw [h2, hj, allEmpty_returnLanes s i x l ls hall]
        simp [hl, hall, State.holdsAny]
      · have hj' : (s.returnLane i x l).sel.poll = s.sel.poll := by
          rw [hj, if_neg]; rintro ⟨_, _, _, h⟩; exact hall h
        have hi' : (s.returnLane i x l).station i = s.station i := by
          rw [hi, if_neg]; rintro ⟨_, _, _, _, h⟩; exact hall h
        rw [hj', hi']
        have h4 : s.holdsAny i (l :: ls) = true := by simp [State.holdsAny, hl]
        simp only [h4, true_and]
        by_cases h5 : (s.returnLane i x l).holdsAny i ls = true
        · simp [h5]
        · simp [h5, not_allEmpty_returnLanes s i x l ls hall h5]


/-! ## Link notes -/

/-- Serving a CANCEL_ALL keeps the line for the MAC. -/
@[simp] theorem giveCancel_radioLine (s : State) : s.giveCancel.radioLine = s.radioLine := by
  unfold State.giveCancel State.radioLine
  split
  · rename_i h
    simp at h
    simp [h.1]
  · rfl

/-- Serving notes keeps the line for the MAC. -/
@[simp] theorem giveNotes_radioLine (s : State) (n : Nat) : (s.giveNotes n).radioLine = s.radioLine := by
  unfold State.giveNotes State.radioLine State.notesServed
  cases h : s.ord.cancelPending
  · simp only [updStt_rli, updRli_rli, updStt_ord, updRli_ord, h, updStt_stt, updRli_stt]
    simp [← List.map_append]
  · simp [h]

@[simp] theorem serveNotes_radioLine (s : State) : s.serveNotes.radioLine = s.radioLine := by
  simp [State.serveNotes]

/-- A note formed joins the line for the MAC at its end. -/
theorem formNote_radioLine (s : State) (n : LinkNote) : (s.formNote n).radioLine = s.radioLine ++ [n.toRecord] := by
  unfold State.formNote
  rw [serveNotes_radioLine]
  cases h : s.ord.cancelPending <;> simp [State.radioLine, h]

/-- Behind a service of the notes no free slot stands beside a waiting CANCEL_ALL or note. -/
theorem serveNotes_radioServed (s : State) : s.serveNotes.radioServed := by
  unfold State.serveNotes State.radioServed
  have hc : s.giveCancel.radioFree = 0 ∨ s.giveCancel.ord.cancelPending = false := by
    unfold State.giveCancel
    by_cases h : s.ord.cancelPending = true ∧ 0 < s.radioFree
    · simp [h]
    · rw [if_neg (by simpa using h)]
      cases hp : s.ord.cancelPending
      · exact Or.inr rfl
      · left; simp [hp] at h; omega
  have hl : s.giveCancel.stt.linkNotes = s.stt.linkNotes := by simp
  generalize s.giveCancel = t at *
  rw [← hl]
  have hk : (t.giveNotes t.stt.linkNotes.length).radioFree
      = t.radioFree - t.notesServed t.stt.linkNotes.length := by
    unfold State.giveNotes State.radioFree State.notesServed
    cases hp : t.ord.cancelPending <;> simp <;> omega
  have hn : (t.giveNotes t.stt.linkNotes.length).stt.linkNotes
      = t.stt.linkNotes.drop (t.notesServed t.stt.linkNotes.length) := rfl
  rw [hk, hn]
  simp only [giveNotes_keeps, List.drop_eq_nil_iff]
  unfold State.notesServed
  cases hp : t.ord.cancelPending
  · simp
    omega
  · simp [hp] at hc
    simp [hc]

theorem formNote_radioServed (s : State) (n : LinkNote) : (s.formNote n).radioServed :=
  serveNotes_radioServed _

/-- R3, a lane that has become empty with a grant to withdraw. -/
theorem laneEmpty_withdraws (s : State) (i : Nat) (l : Lane) (h0 : i ≠ 0) (hs : (s.station i).state = .dozing)
    (ha : (s.lanesOf i).allEmpty = true) (hp : i ∈ s.sel.poll) :
    s.laneEmpty i l = (s.removePoll i).formPollEmpty i := by
  unfold State.laneEmpty
  rw [if_neg h0, hs]
  simp [ha, hp]

end Sys2Proof.Machine
end

