-- ==== Sys2Proof/Laws/Modes.lean ====
section
/-!
SUPPORT. What the modes do: staged changes and the entry to READY (R11, R90, R165), the quiet-cause set (R151, R154), and which
stations a MAC record may name (R15).
-/

namespace Sys2Proof.Machine

theorem membershipAfter_station (s : State) (b : Coh) (i) (hi : i < 512) : (s.membershipAfter b).station i
    = { s.station i with cohort := if s.coh.cohorts.rows.map Cohort.span = b.cohorts.rows.map Cohort.span then (s.station i).cohort else memberOf s.coh.cohorts.rows i } := by
  unfold State.membershipAfter
  split
  · rfl
  · unfold State.recomputeMembership State.station State.updStt
    simp [Table.get_mapIdx, hi, Config.stationCount]

theorem spans_eq_iff (a b : Coh) : (a.cohorts.rows.map Cohort.span = b.cohorts.rows.map Cohort.span) ↔ ∀ c, c < 32
    → (a.cohorts.get .pinReset c).span = (b.cohorts.get .pinReset c).span := by
  have ha : a.cohorts.rows.length = 32 := a.cohorts.size
  have hb : b.cohorts.rows.length = 32 := b.cohorts.size
  constructor
  · intro h c hc
    have := congrArg (fun l => l.getD c 0) h
    simp [List.getD_eq_getElem?_getD] at this
    simp only [Table.get, List.getD_eq_getElem?_getD]
    rw [List.getElem?_eq_getElem (by omega), List.getElem?_eq_getElem (by omega)] at *
    simpa using this
  · intro h
    apply List.ext_getElem (by simp [ha, hb])
    intro j h1 h2
    simp only [List.length_map] at h1 h2
    have := h j (by omega)
    simp only [Table.get, List.getD_eq_getElem?_getD] at this
    rw [List.getElem?_eq_getElem (by omega), List.getElem?_eq_getElem (by omega)] at this
    simpa using this

/-- The entry to READY stops the clocks and applies every staged change (R11, R90, R165). -/
theorem enterReady_spec (s : State) : 
     s.enterReady.rck = { s.rck with clocksRunning := false }
        ∧ (∀ i, i < 512 → s.enterReady.station i = { s.station i with
            weight := (s.station i).stagedWeight.getD (s.station i).weight, stagedWeight := none
            held := (s.station i).stagedHold.getD (s.station i).held, stagedHold := none
            cohort := (s.enterReady.station i).cohort })
        ∧ (∀ c, c < 32 → s.enterReady.cohort c = { s.cohort c with
            span := (s.cohort c).stagedSpan.getD (s.cohort c).span, stagedSpan := none
            capPm := (s.cohort c).stagedCapPm.getD (s.cohort c).capPm, stagedCapPm := none })
        ∧ ((∀ c, c < 32 → (s.enterReady.cohort c).span = (s.cohort c).span) →
            ∀ i, i < 512 → (s.enterReady.station i).cohort = (s.station i).cohort)
        ∧ ((∃ c, c < 32 ∧ (s.enterReady.cohort c).span ≠ (s.cohort c).span) →
            ∀ i, i < 512 → (s.enterReady.station i).cohort = memberOf s.enterReady.coh.cohorts.rows i) := by
  have hst : ∀ i, i < 512 → s.enterReady.station i
      = { (s.station i).applyStaged with cohort := if s.enterReady.coh.cohorts.rows.map Cohort.span = s.coh.cohorts.rows.map Cohort.span then (s.station i).cohort else memberOf s.enterReady.coh.cohorts.rows i } := by
    intro i hi
    unfold State.enterReady State.applyStagedCohorts
    simp only [setMode_keeps]
    rw [membershipAfter_station _ _ _ hi]
    have : (s.stopClocks.applyStagedStations).station i = (s.station i).applyStaged := by
      unfold State.applyStagedStations State.station State.updStt
      simp [Table.get_mapIdx, hi, Config.stationCount]
    simp [this]
    split <;> rfl
  have hco : ∀ c, c < 32 → s.enterReady.cohort c = (s.cohort c).applyStaged := by
    intro c hc
    unfold State.enterReady State.applyStagedCohorts
    simp only [setMode_keeps, membershipAfter_keeps]
    unfold State.cohort State.updCoh
    simp [Table.get_mapIdx, hc, Config.cohortCount]
  refine ⟨?_, ?_, ?_, ?_, ?_⟩
  · simp [State.enterReady, State.stopClocks]
  · intro i hi
    rw [hst i hi]
    rfl
  · intro c hc
    rw [hco c hc]
    rfl
  · intro h i hi
    rw [hst i hi]
    rw [if_pos ((spans_eq_iff _ _).mpr h)]
  · rintro ⟨c, hc, h⟩ i hi
    rw [hst i hi]
    rw [if_neg]
    intro e
    exact h ((spans_eq_iff _ _).mp e c hc)

theorem enterReady_mod (s : State) (h : s.mod.mode ≠ .ready) : s.enterReady.mod
    = { s.mod with mode := .ready, pendingAlert := true } := by
  simp [State.enterReady, State.setMode, h, State.setPendingAlert]

theorem selectionRun_cli (s : State) (c : Cli) : ({ s with cli := c } : State).selectionRun
    = { s.selectionRun with cli := c } := by
  have e1 : ({s with cli := c}:State).selectionOpen = s.selectionOpen := rfl
  have e2 : ({s with cli := c}:State).pick = s.pick := rfl
  unfold State.selectionRun
  rw [e1, e2]
  split
  · split <;> rfl
  · rfl

/-- A reply placed behind a run is as one placed before it. -/
theorem selectionRun_pushOut (s : State) (x : OutRecord) : s.selectionRun.pushOut x = (s.pushOut x).selectionRun := by
  rw [pushOut_eq s x, selectionRun_cli s (Cli.pushed s.cli s.rck.deviceTime s.mod.attnOperation x),
    pushOut_eq s.selectionRun x]
  simp only [selectionRun_keeps]

@[simp] theorem quietSet_config (m : Mod) (q : QuietCauses) : (m.quietSet q).config = m.config := by
  unfold Mod.quietSet; split <;> rfl

theorem quietCauses_isEmpty_iff (q : QuietCauses) : q.isEmpty = true ↔ q = .empty := by
    rcases q with ⟨_|_,_|_,_|_⟩ <;> simp [QuietCauses.isEmpty, QuietCauses.empty]

/-- A change of the quiet-cause set (R151, R154). -/
theorem setCauses_eq (s : State) (q : QuietCauses) :
    s.setCauses q = if s.mod.mode = .quiet ∧ (s.mod.quietSet q).mode = .running
      then { s with mod := s.mod.quietSet q }.selectionRun else { s with mod := s.mod.quietSet q } := by
  unfold State.setCauses Mod.quietSet
  by_cases hq : q = s.mod.causes
  · simp only [hq, if_true]
    rw [if_neg]
    rintro ⟨a, b⟩; rw [a] at b; cases b
  · simp only [hq, if_false]
    cases hm : s.mod.mode
    all_goals simp [State.setPendingAlert, State.setMode, State.updMod, hm]
    · by_cases h1 : q = .empty
      · simp [h1, quietCauses_isEmpty_iff]
      · have : ¬ q.isEmpty = true := by simpa [quietCauses_isEmpty_iff] using h1
        simp [h1, this]
    · by_cases h1 : q = .empty
      · have : q.isEmpty = true := by simpa [quietCauses_isEmpty_iff] using h1
        have h9 : QuietCauses.empty.isEmpty = true := rfl
        simp [h1, h9]
      · have : ¬ q.isEmpty = true := by simpa [quietCauses_isEmpty_iff] using h1
        simp [h1, this]

theorem awakeOrDozing_eq (s : State) (i : Nat) :
    s.awakeOrDozing i = if i = 0 ∨ 512 ≤ i ∨ (s.station i).state = .vacant ∨ (s.station i).state = .leaving then none
      else some (s.station i).state := by
  unfold State.awakeOrDozing
  by_cases h : i = 0 ∨ 512 ≤ i
  · have h' : i = 0 ∨ 512 ≤ i ∨ (s.station i).state = .vacant ∨ (s.station i).state = .leaving := by
      rcases h with h | h <;> simp [h]
    rw [if_pos h, if_pos h']
  · rw [if_neg h]
    push Not at h
    cases hs : (s.station i).state <;> simp [h]

theorem selectionRun_restartBlanking (s : State) : s.selectionRun.restartBlanking
    = s.restartBlanking.selectionRun := by
  have hp : s.restartBlanking.pick = s.pick := rfl
  have ho : s.restartBlanking.selectionOpen = s.selectionOpen := rfl
  unfold State.selectionRun
  rw [hp, ho]
  split
  · split <;> rfl
  · rfl

end Sys2Proof.Machine
end

