-- ==== Sys2Proof/Laws/Lists.lean ====
section
/-!
SUPPORT. Lanes that gain a frame (R3), frames offered (R27), stations released (R7), and lanes returned where no list follows.
-/

namespace Sys2Proof.Machine

theorem frameRefusal_cli (s : State) (c : Cli) (f) : State.frameRefusal { s with cli := c } f = s.frameRefusal f := rfl

theorem laneNonempty_cli (s : State) (c : Cli) (i l) : State.laneNonempty { s with cli := c } i l
    = { s.laneNonempty i l with cli := c } := by
  unfold State.laneNonempty
  show (if i = 0 then if s.dozingCount
      = 0 then _ else _ else match (s.station i).state with | .idle => _ | .backlogged => _ | .dozing => _ | .leaving => _ | .vacant => _) = _
  split
  · split <;> rfl
  · cases (s.station i).state <;> dsimp only <;> (try split) <;> rfl

theorem offerFrame_cli (s : State) (c : Cli) (f) : State.offerFrame { s with cli := c } f
    = ({ (s.offerFrame f).1 with cli := c }, (s.offerFrame f).2) := by
  unfold State.offerFrame
  rw [frameRefusal_cli]
  cases h : s.frameRefusal f
  · dsimp only
    unfold State.acceptFrame
    dsimp only
    show ((if (s.lane _ _).isEmpty then _ else _), _) = _
    split
    · rename_i hh
      rw [if_pos]
      · rw [← laneNonempty_cli]; rfl
      · exact hh
    · rename_i hh
      rw [if_neg]
      · rfl
      · exact hh
  · rfl

theorem offerFrames_cli (fs) (s : State) (c : Cli) : State.offerFrames fs { s with cli := c }
    = ({ (s.offerFrames fs).1 with cli := c }, (s.offerFrames fs).2) := by
  induction fs generalizing s with
  | nil => rfl
  | cons f fs ih =>
    simp only [State.offerFrames, offerFrame_cli, ih]

theorem laneNonempty_station (s : State) (i j l) (hi : i < 512) : (s.laneNonempty i l).station j = if j = i
    ∧ j ≠ 0 ∧ (s.station j).state = .idle then (s.station j).resumed .backlogged s.rck.clocksRunning
    else s.station j := by
  unfold State.laneNonempty
  by_cases h0 : i = 0
  · rw [if_pos h0]
    have : ¬ (j = i ∧ j ≠ 0 ∧ (s.station j).state = .idle) := by rintro ⟨a, b, _⟩; omega
    rw [if_neg this]
    split <;> simp
  · rw [if_neg h0]
    cases hst : (s.station i).state <;> dsimp only
    · by_cases hj : j = i
      · subst hj; simp [hst]
      · simp [hj]
    · have e : ∀ t : State, (if l = Lane.prompt then t.placePrompt i else t).station j
        = t.station j := by intro t; split <;> simp
      rw [e]
      simp only [placeActive_keeps]
      rw [resumeAs_station _ _ _ _ hi]
      by_cases hj : j = i
      · subst hj; simp [hst, h0]
      · simp [hj]
    · split
      · by_cases hj : j = i
        · subst hj; simp [hst]
        · simp [hj]
      · by_cases hj : j = i
        · subst hj; simp [hst]
        · simp [hj]
    · by_cases hj : j = i
      · subst hj; simp [hst]
      · simp [hj]
    · by_cases hj : j = i
      · subst hj; simp [hst]
      · simp [hj]

theorem laneNonempty_active (s : State) (i l) : (s.laneNonempty i l).sel.active = if i ≠ 0
    ∧ (s.station i).state = .idle ∧ i ∉ s.sel.active then s.sel.active ++ [i] else s.sel.active := by
  unfold State.laneNonempty
  by_cases h0 : i = 0
  · rw [if_pos h0]; simp [h0]; split <;> simp
  · rw [if_neg h0]
    cases hst : (s.station i).state <;> simp [h0]
    · split <;> simp [State.placeActive, joinTail] <;> split <;> simp_all
    · split <;> simp

theorem laneNonempty_prompt (s : State) (i l) : (s.laneNonempty i l).sel.prompt = if i ≠ 0 ∧ l = .prompt
    ∧ i ∉ s.sel.prompt ∧ ((s.station i).state = .idle ∨ (s.station i).state
    = .backlogged) then s.sel.prompt ++ [i] else s.sel.prompt := by
  unfold State.laneNonempty
  by_cases h0 : i = 0
  · rw [if_pos h0]; simp [h0]; split <;> simp
  · rw [if_neg h0]
    cases hst : (s.station i).state <;> simp [h0]
    · by_cases hl : l = .prompt <;> simp [hl, State.placePrompt, joinTail] <;> split <;> simp_all
    · by_cases hl : l = .prompt <;> simp [hl, State.placePrompt, joinTail] <;> split <;> simp_all

theorem laneNonempty_groupDue (s : State) (i l) : (s.laneNonempty i l).sel.groupDue = if i = 0
    ∧ s.dozingCount = 0 then true else s.sel.groupDue := by
  unfold State.laneNonempty
  by_cases h0 : i = 0
  · rw [if_pos h0]; by_cases hd : s.dozingCount = 0 <;> simp [h0, hd, State.setGroupDue]
  · rw [if_neg h0]
    cases hst : (s.station i).state <;> simp [h0]
    · split <;> simp
    · split <;> simp

/-- A released station leaves the lists and is cleared or LEAVING (R7, R40). -/
theorem releaseStation_spec (s : State) (i : Nat) (hi : i < 512) :
   ((s.station i).inFlight = 0 → (s.releaseStation i).station i = .cleared (s.station i).cohort
       ∧ (s.releaseStation i).radioLine = s.radioLine ++ [.unbind i] ∧ (s.releaseStation i).radioServed)
   ∧ ((s.station i).inFlight ≠ 0 → (s.releaseStation i).station i = { s.station i with
              state := .leaving, held := false, stagedWeight := none, stagedHold := none } ∧ (s.releaseStation i).stt.linkNotes = s.stt.linkNotes ∧ (s.releaseStation i).rli = s.rli ∧ (s.releaseStation i).ord = s.ord)
   ∧ (∀ j, j ≠ i → (s.releaseStation i).station j = s.station j)
   ∧ (s.releaseStation i).sel = { s.sel with
            active := s.sel.active.erase i, prompt := s.sel.prompt.erase i, poll := s.sel.poll.erase i }
   ∧ ((s.releaseStation i).station i).state ≠ .backlogged ∧ ((s.releaseStation i).station i).state ≠ .dozing := by
  unfold State.releaseStation
  dsimp only
  set t := (s.removeFromLists i).updStation i fun x => { x with stagedWeight := none, stagedHold := none } with ht
  have h1 : t.station i = { s.station i with stagedWeight := none, stagedHold := none } := by
    rw [ht, updStation_station_self _ _ hi]; simp
  have h2 : ∀ j, j ≠ i → t.station j = s.station j := by
    intro j hj; rw [ht, updStation_station_of_ne _ _ hj]; simp
  have h3 : t.sel = { s.sel with active := s.sel.active.erase i, prompt := s.sel.prompt.erase i, poll := s.sel.poll.erase i } := by
    simp [ht, State.removeFromLists, State.removeActive, State.removePrompt, State.removePoll]
  have h4 : t.radioLine = s.radioLine := rfl
  have h5 : (t.station i).inFlight = (s.station i).inFlight := by rw [h1]
  rw [h5]
  have hc : (t.clearStation i).station i = .cleared (s.station i).cohort := by
    unfold State.clearStation; rw [updStation_station_self _ _ hi, h1]
  split
  · rename_i h0
    refine ⟨fun _ => ⟨?_, ?_, ?_⟩, fun h => absurd h0 h, ?_, ?_, ?_, ?_⟩
    · simp only [formNote_keeps]; exact hc
    · rw [formNote_radioLine]; rfl
    · exact formNote_radioServed _ _
    · intro j hj
      simp only [formNote_keeps]; unfold State.clearStation; rw [updStation_station_of_ne _ _ hj, h2 j hj]
    · simp [h3]
    · simp only [formNote_keeps, hc]; simp [Station.cleared]
    · simp only [formNote_keeps, hc]; simp [Station.cleared]
  · rename_i h0
    refine ⟨fun h => absurd h h0, fun _ => ⟨?_, ?_, ?_, ?_⟩, ?_, ?_, ?_, ?_⟩
    · rw [updStation_station_self _ _ hi, h1]
    · simp [ht]
    · simp [ht]
    · simp [ht]
    · intro j hj
      rw [updStation_station_of_ne _ _ hj, h2 j hj]
    · simp [h3]
    · rw [updStation_station_self _ _ hi]; simp
    · rw [updStation_station_self _ _ hi]; simp

theorem laneEmpty_same (s : State) (i l) (h0 : i ≠ 0) (h1 : (s.station i).state ≠ .backlogged) (h2 : (s.station i).state ≠ .dozing) : s.laneEmpty i l = s := by
  unfold State.laneEmpty
  rw [if_neg h0]
  cases h : (s.station i).state <;> simp_all

theorem returnLanes_quiet (ls) (s : State) (i x) (h0 : i ≠ 0) (h1 : (s.station i).state ≠ .backlogged) (h2 : (s.station i).state ≠ .dozing) :
   (s.returnLanes i x ls).stt = s.stt ∧ (s.returnLanes i x ls).sel = s.sel ∧ (s.returnLanes i x ls).rli = s.rli
       ∧ (s.returnLanes i x ls).ord = s.ord := by
  induction ls generalizing s with
  | nil => simp [State.returnLanes]
  | cons l ls ih =>
    have e : s.returnLanes i x (l :: ls) = (s.returnLane i x l).returnLanes i x ls := rfl
    have e2 : (s.returnLane i x l).stt = s.stt ∧ (s.returnLane i x l).sel = s.sel
        ∧ (s.returnLane i x l).rli = s.rli ∧ (s.returnLane i x l).ord = s.ord := by
      unfold State.returnLane
      split
      · simp
      · rw [laneEmpty_same _ _ _ h0 (by simpa using h1) (by simpa using h2)]
        simp
    have e3 : (s.returnLane i x l).station i = s.station i := by unfold State.station; rw [e2.1]
    rw [e]
    obtain ⟨a, b, c, d⟩ := ih (s.returnLane i x l) (by rw [e3]; exact h1) (by rw [e3]; exact h2)
    exact ⟨a.trans e2.1, b.trans e2.2.1, c.trans e2.2.2.1, d.trans e2.2.2.2⟩

theorem returnLanes_none (ls) (s : State) (i x) (h : s.holdsAny i ls = false) : s.returnLanes i x ls = s := by
  induction ls generalizing s with
  | nil => rfl
  | cons l ls ih =>
    have e : s.returnLanes i x (l :: ls) = (s.returnLane i x l).returnLanes i x ls := rfl
    have hl : s.lane i l = [] := by simp [State.holdsAny] at h; exact h.1
    have e2 : s.returnLane i x l = s := by unfold State.returnLane; rw [hl]
    rw [e, e2]
    apply ih
    simp [State.holdsAny] at h ⊢; exact h.2

/-- The lanes of a DOZING station with a grant and no POLL_EMPTY queued, returned to the last entry: one note (R3, R6). -/
theorem returnLanes_forms (ls) (s : State) (i x) (h0 : i ≠ 0) (hs : (s.station i).state
    = .dozing) (hh : s.holdsAny i ls = true) (ha : ((s.returnLanes i x ls).lanesOf i).allEmpty
    = true) (hp : i ∈ s.sel.poll) (hnp : LinkNote.pollEmpty i ∉ s.stt.linkNotes) :
   ∃ w : State, w.rli = s.rli ∧ w.stt.linkNotes = s.stt.linkNotes ∧ w.ord = s.ord
     ∧ s.returnLanes i x ls = w.formNote (.pollEmpty i) := by
  induction ls generalizing s with
  | nil => simp [State.holdsAny] at hh
  | cons l ls ih =>
    have e : s.returnLanes i x (l :: ls) = (s.returnLane i x l).returnLanes i x ls := rfl
    by_cases hl : s.lane i l = []
    · have e2 : s.returnLane i x l = s := by unfold State.returnLane; rw [hl]
      rw [e, e2] at ha ⊢
      exact ih s hs (by simpa [State.holdsAny, hl] using hh) ha hp hnp
    · set w := (((s.setLane i l []).updFpl fun p => { p with expiry := leaveExpiry p.expiry (s.lane i l) }).returnFrames (withResult (s.lane i l) x)) with hw
      have e3 : s.returnLane i x l = w.laneEmpty i l := by
        unfold State.returnLane; split
        · rename_i h; exact absurd h hl
        · rfl
      have hwl : w.lanesOf i = (s.lanesOf i).set l [] := by
        have := returnLane_lanesOf s i i x l
        rw [e3] at this
        simpa using this
      have hwr : w.rli = s.rli ∧ w.stt.linkNotes = s.stt.linkNotes ∧ w.ord = s.ord := ⟨rfl, rfl, rfl⟩
      by_cases hall : ((s.lanesOf i).set l []).allEmpty = true
      · have h1 := returnLanes_none ls (s.returnLane i x l) i x (holdsAny_returnLane s i x l ls hall)
        rw [e, h1, e3, laneEmpty_withdraws w i l h0 (by simpa [hw] using hs) (by rw [hwl]; exact hall) (by simpa [hw] using hp)]
        unfold State.formPollEmpty
        rw [if_neg (by simpa [hw] using hnp)]
        exact ⟨w.removePoll i, by simp [hwr], by simp [hwr], by simp [hwr], rfl⟩
      · have e4 : w.laneEmpty i l = w := by
          unfold State.laneEmpty
          have : (w.station i).state = .dozing := by simpa [hw] using hs
          rw [if_neg h0, this]
          simp [hwl, hall]
        have h5 : (s.returnLane i x l).holdsAny i ls = true := by
          by_contra hc
          exact not_allEmpty_returnLanes s i x l ls hall hc ha
        rw [e]
        rw [e] at ha
        rw [e3, e4] at ha h5 ⊢
        obtain ⟨v, v1, v2, v3, v4⟩ :=
          ih w (by simpa [hw] using hs) h5 ha (by simpa [hw] using hp) (by simpa [hw] using hnp)
        exact ⟨v, v1.trans hwr.1, v2.trans hwr.2.1, v3.trans hwr.2.2, v4⟩

theorem returnLanes_withdraw (ls) (s : State) (i x) (h0 : i ≠ 0) (hs : (s.station i).state
    = .dozing) (hh : s.holdsAny i ls = true) (ha : ((s.returnLanes i x ls).lanesOf i).allEmpty
    = true) (hp : i ∈ s.sel.poll) (hnp : LinkNote.pollEmpty i ∉ s.stt.linkNotes) :
   (s.returnLanes i x ls).radioLine = s.radioLine ++ [.pollEmpty i] ∧ (s.returnLanes i x ls).radioServed := by
  obtain ⟨w, w1, w2, w3, w4⟩ := returnLanes_forms ls s i x h0 hs hh ha hp hnp
  rw [w4, formNote_radioLine]
  refine ⟨?_, formNote_radioServed _ _⟩
  simp [State.radioLine, w1, w2, w3, LinkNote.toRecord]

theorem returnLanes_radio (ls) (s : State) (i x) (h : s.holdsAny i ls = false ∨ i = 0
    ∨ (s.station i).state ≠ .dozing) :
   (s.returnLanes i x ls).stt.linkNotes = s.stt.linkNotes ∧ (s.returnLanes i x ls).rli = s.rli
       ∧ (s.returnLanes i x ls).ord = s.ord := by
  induction ls generalizing s with
  | nil => simp [State.returnLanes]
  | cons l ls ih =>
    have e : s.returnLanes i x (l :: ls) = (s.returnLane i x l).returnLanes i x ls := rfl
    by_cases hl : s.lane i l = []
    · have e2 : s.returnLane i x l = s := by unfold State.returnLane; rw [hl]
      rw [e, e2]
      apply ih
      rcases h with h | h
      · left; simp [State.holdsAny] at h ⊢; exact h.2
      · right; exact h
    · have h' : i = 0 ∨ (s.station i).state ≠ .dozing := by
        rcases h with h | h
        · simp [State.holdsAny, hl] at h
        · exact h
      have e2 : (s.returnLane i x l).stt.linkNotes = s.stt.linkNotes ∧ (s.returnLane i x l).rli = s.rli
          ∧ (s.returnLane i x l).ord = s.ord := by
        unfold State.returnLane
        split
        · simp
        · have := laneEmpty_radio ((((s.setLane i l []).updFpl fun p => { p with expiry := leaveExpiry p.expiry (s.lane i l) }).returnFrames (withResult (s.lane i l) x))) i l (by rcases h' with h' | h' <;> simp [h'])
          simpa using this
      have e3 : i = 0 ∨ ((s.returnLane i x l).station i).state ≠ .dozing := by
        rcases h' with h' | h'
        · exact Or.inl h'
        · right; rw [returnLane_station]; split <;> simp_all
      rw [e]
      obtain ⟨a, b, c⟩ := ih (s.returnLane i x l) (Or.inr e3)
      exact ⟨a.trans e2.1, b.trans e2.2.1, c.trans e2.2.2⟩

end Sys2Proof.Machine
end

