-- ==== Sys2Proof/Laws/Orders.lean ====
section
/-!
SUPPORT. What ORD leaves: in_flight and the UNBIND of a leaving station (R8, R17), cancelled orders (R137), requeued and returned
frames (R126, R131), a lost order, an accepted outcome (R125), ids (R119), the take of an order (R31) and the placing of
TX_ORDERs (R123).
-/

namespace Sys2Proof.Machine

theorem giveNotes_ord (s : State) (n) : (s.giveNotes n).ord = s.ord := by simp

theorem lowerInFlight_station (s : State) (i j) (h : (s.station j).state ≠ .leaving) : (s.lowerInFlight i).station j = { s.station j with inFlight := if i = j then (s.station j).inFlight - 1 else (s.station j).inFlight } := by
  unfold State.lowerInFlight
  dsimp only
  split
  · rename_i hh
    simp only [formNote_keeps]
    unfold State.clearStation
    by_cases hij : i = j
    · subst hij
      exfalso
      rw [updStation_station] at hh
      split at hh <;> simp_all
    · rw [updStation_station_of_ne _ _ (Ne.symm hij), updStation_station_of_ne _ _ (Ne.symm hij)]
      simp [hij]
  · rw [updStation_station]
    by_cases hij : i = j
    · subst hij
      by_cases hi : i < 512
      · simp [hi, Config.stationCount]
      · rw [station_of_le _ (by omega)]; simp [Station.cleared, hi, Config.stationCount]
    · simp [hij]

theorem cancelOrder_station (s : State) (o j) (h : (s.station j).state ≠ .leaving) : (s.cancelOrder o).station j
    = { s.station j with inFlight := if o.station = j then (s.station j).inFlight - 1 else (s.station j).inFlight } := by
  unfold State.cancelOrder
  dsimp only
  simp only [countOrd_keeps]
  rw [lowerInFlight_station] <;> simp
  exact h

theorem cancelFold_station (os : List Order) (s : State) (j) (h : (s.station j).state ≠ .leaving) : (os.foldl State.cancelOrder s).station j = { s.station j with inFlight := (s.station j).inFlight - os.countP fun o => o.station == j } := by
  induction os generalizing s with
  | nil => simp
  | cons o os ih =>
    simp only [List.foldl_cons]
    rw [ih]
    · rw [cancelOrder_station _ _ _ h]
      simp [List.countP_cons]
      split_ifs <;> omega
    · rw [cancelOrder_station _ _ _ h]; exact h

theorem cancelOrder_ord (s : State) (o) (hq : s.ord.quarantine.length ≤ 8) : (s.cancelOrder o).ord.outstanding
    = s.ord.outstanding.filter (fun x => x.id != o.id) ∧ (s.cancelOrder o).ord.quarantine
    = (s.ord.quarantine ++ [o.id]).drop (s.ord.quarantine.length + 1 - 8)
   ∧ (s.cancelOrder o).ord.counters
       = { s.ord.counters with ordersCancelled := min (s.ord.counters.ordersCancelled + 1) 4294967295, quarantineEvictions := if 8 ≤ s.ord.quarantine.length then min (s.ord.counters.quarantineEvictions + 1) 4294967295 else s.ord.counters.quarantineEvictions }
   ∧ (s.cancelOrder o).fpl = { s.fpl with returnList := s.fpl.returnList ++ o.frames.map (fun f => ⟨f, .aborted⟩) } := by
  unfold State.cancelOrder State.removeOrder State.quarantineId State.countOrd Config.quarantineIds
  dsimp only
  by_cases h8 : 8 ≤ s.ord.quarantine.length
  · have h8' : s.ord.quarantine.length = 8 := by omega
    simp [h8', State.returnFrames, satAdd, withResult, List.drop_append]
  · have : s.ord.quarantine.length + 1 - 8 = 0 := by omega
    simp [h8, State.returnFrames, satAdd, withResult, this]

theorem cancelFold_ord (os : List Order) (s : State) (hq : s.ord.quarantine.length ≤ 8) : (os.foldl State.cancelOrder s).ord.outstanding = s.ord.outstanding.filter (fun x => os.all fun o => x.id != o.id) ∧ (os.foldl State.cancelOrder s).ord.quarantine = (s.ord.quarantine ++ os.map Order.id).drop (s.ord.quarantine.length + os.length - 8)
   ∧ (os.foldl State.cancelOrder s).ord.counters
       = { s.ord.counters with ordersCancelled := if os = [] then s.ord.counters.ordersCancelled else min (s.ord.counters.ordersCancelled + os.length) 4294967295, quarantineEvictions := if s.ord.quarantine.length + os.length ≤ 8 then s.ord.counters.quarantineEvictions else min (s.ord.counters.quarantineEvictions + (s.ord.quarantine.length + os.length - 8)) 4294967295 }
   ∧ (os.foldl State.cancelOrder s).fpl
       = { s.fpl with returnList := s.fpl.returnList ++ os.flatMap fun o => o.frames.map (fun f => ⟨f, .aborted⟩) } := by
  induction os generalizing s with
  | nil => simp [show s.ord.quarantine.length - 8 = 0 by omega, hq]
  | cons o os ih =>
    obtain ⟨a1, a2, a3, a4⟩ := cancelOrder_ord s o hq
    have hl : (s.cancelOrder o).ord.quarantine.length ≤ 8 := by rw [a2]; simp; omega
    obtain ⟨b1, b2, b3, b4⟩ := ih _ hl
    simp only [List.foldl_cons]
    refine ⟨?_, ?_, ?_, ?_⟩
    · rw [b1, a1, List.filter_filter]
      congr 1
      funext x
      simp [Bool.and_comm]
    · rw [b2, a2]
      have : ((s.ord.quarantine ++ [o.id]).drop (s.ord.quarantine.length + 1 - 8)).length
          = s.ord.quarantine.length + 1 - (s.ord.quarantine.length + 1 - 8) := by simp
      rw [this]
      rw [← List.drop_append_of_le_length (by simp; omega)]
      rw [List.drop_drop]
      simp
      omega
    · rw [b3, a3, a2]
      have : ((s.ord.quarantine ++ [o.id]).drop (s.ord.quarantine.length + 1 - 8)).length
          = s.ord.quarantine.length + 1 - (s.ord.quarantine.length + 1 - 8) := by simp
      rw [this]
      simp only [OrdCounters.mk.injEq, true_and, and_true]
      have hlen : os = [] ↔ os.length = 0 := by simp
      refine ⟨?_, ?_⟩
      · simp only [hlen, reduceCtorEq, List.length_cons, if_false]; split_ifs <;> omega
      · simp only [List.length_cons]; split_ifs <;> omega
    · rw [b4, a4]
      simp

theorem filter_order_id {pre post : List Order} {o : Order} (h : ∀ p ∈ pre ++ post, p.id ≠ o.id) :
    (pre ++ o :: post).filter (fun x => x.id != o.id) = pre ++ post := by
  rw [List.filter_append]
  have a : pre.filter (fun x => x.id != o.id) = pre := by
    rw [List.filter_eq_self]; intro p hp; simpa using h p (by simp [hp])
  have b : post.filter (fun x => x.id != o.id) = post := by
    rw [List.filter_eq_self]; intro p hp; simpa using h p (by simp [hp])
  simp [a, b]

/-- requeue: lanes -/
theorem requeueFrames_lane (s : State) (i j : Nat) (l k : Lane) (fs : List Frame) (hi : i < 512) :
    (s.requeueFrames i l fs).lane j k = if (j, k) = (i,
        l) then fs.map Frame.requeued ++ s.lane i l else s.lane j k := by
  unfold State.requeueFrames
  by_cases hf : fs = []
  · subst hf; simp
    rintro rfl rfl; rfl
  · rw [if_neg (by simpa using hf)]
    have e : ∀ t : State, (if (s.lane i l).isEmpty then t.laneNonempty i l else t).lane j k
        = t.lane j k := by intro t; split <;> simp
    dsimp only
    rw [e]
    refine (lane_congr (s := s.setLane i l (fs.map Frame.requeued ++ s.lane i l)) rfl j k).trans ?_
    rw [setLane_lane]
    by_cases h : (j, k) = (i, l)
    · have : j = i := congrArg Prod.fst h
      simp [h, this, hi, Config.stationCount]
    · simp only [h, false_and, if_false]

theorem requeueFrames_station (s : State) (i j : Nat) (l : Lane) (fs : List Frame) (hi : i < 512) :
    (s.requeueFrames i l fs).station j = if j = i ∧ i ≠ 0 ∧ (s.station i).state = .idle ∧ fs ≠ []
        ∧ s.lane i l = [] then (s.station j).resumed .backlogged s.rck.clocksRunning else s.station j := by
  unfold State.requeueFrames
  by_cases hf : fs = []
  · subst hf; simp
  · rw [if_neg (by simpa using hf)]
    dsimp only
    split
    · rename_i h
      rw [laneNonempty_station _ _ _ _ hi]
      by_cases hj : j = i
      · subst hj; simp [hf] ; simp at h; simp [h]
      · simp [hj]
    · rename_i h
      simp at h
      simp [h]

/-- what concluding the frames does to the lanes -/
theorem concludeFrames_lane (s : State) (o : Order) (j : Nat) (k : Lane) (x : FrameResult) (fs : List Frame) (hi : o.station < 512) :
    (s.concludeFrames o x fs).lane j k = if (j, k) = (o.station, o.lane) then
      (fs.filter fun f => (frameFate s.mod.config ((s.station o.station).state == .leaving) s.rck.deviceTime x f).isNone).map Frame.requeued ++ s.lane o.station o.lane else s.lane j k := by
  unfold State.concludeFrames
  dsimp only
  refine (lane_congr (s := s.requeueFrames o.station o.lane (fs.filter fun f => (frameFate s.mod.config ((s.station o.station).state == .leaving) s.rck.deviceTime x f).isNone)) rfl j k).trans ?_
  rw [requeueFrames_lane _ _ _ _ _ _ hi]

theorem concludeFrames_station_of_ne (s : State) (o : Order) (j : Nat) (x : FrameResult) (fs : List Frame) (hi : o.station < 512) (hj : j ≠ o.station) :
    (s.concludeFrames o x fs).station j = s.station j := by
  unfold State.concludeFrames
  dsimp only
  simp only [returnFrames_keeps]
  rw [requeueFrames_station _ _ _ _ _ hi, if_neg]
  rintro ⟨h, _⟩; exact hj h

theorem concludeFrames_returnList (s : State) (o : Order) (x : FrameResult) (fs : List Frame) :
    (s.concludeFrames o x fs).fpl.returnList
        = s.fpl.returnList ++ fs.filterMap fun f => (frameFate s.mod.config ((s.station o.station).state == .leaving) s.rck.deviceTime x f).map fun r => { frame := f, result := r } := by
  unfold State.concludeFrames
  simp [State.returnFrames]

theorem frameFate_filter (cfg : Configuration) (now : Time) (x : FrameResult) (fs : List Frame) :
   (fs.filter fun f => (frameFate cfg false now x f).isNone)
       = fs.filter fun f => !deadlinePassed now f.deadline && decide (f.requeues < cfg.requeueMax) := by
  apply List.filter_congr
  intro f _
  unfold frameFate
  simp
  split
  · simp [*]
  · split <;> simp [*]

theorem frameFate_filterMap (cfg : Configuration) (now : Time) (x : FrameResult) (fs : List Frame) :
   (fs.filterMap fun f => (frameFate cfg false now x f).map fun r => ({ frame := f, result := r } : Returning))
       = (fs.filter fun f => deadlinePassed now f.deadline || decide (cfg.requeueMax ≤ f.requeues)).map
              (fun f => ⟨f, if deadlinePassed now f.deadline = true then .expired else x⟩) := by
  induction fs with
  | nil => rfl
  | cons f fs ih =>
    rw [List.filterMap_cons, List.filter_cons, ih]
    unfold frameFate
    by_cases h1 : deadlinePassed now f.deadline = true
    · simp [h1]
    · by_cases h2 : f.requeues < cfg.requeueMax
      · have : ¬ cfg.requeueMax ≤ f.requeues := by omega
        simp [h1, h2, this]
      · have : cfg.requeueMax ≤ f.requeues := by omega
        simp [h1, h2, this]

theorem countFrames_station (s : State) (i j d f : Nat) (hi : i < 512) :
    (s.countFrames i d f).station j = if j
        = i then { s.station j with delivered := satAdd (s.station j).delivered d, failed := satAdd (s.station j).failed f } else s.station j := by
  unfold State.countFrames
  by_cases h : j = i
  · subst h; rw [updStation_station_self _ _ hi]; simp
  · rw [updStation_station_of_ne _ _ h]; simp [h]

theorem countLost_station (s : State) (i j f : Nat) (hi : i < 512) :
    (s.countLost i f).station j = if j
        = i then { s.station j with failed := satAdd (s.station j).failed f } else s.station j := by
  unfold State.countLost
  by_cases h : j = i
  · subst h; rw [updStation_station_self _ _ hi]; simp
  · rw [updStation_station_of_ne _ _ h]; simp [h]

theorem lowerInFlight_radio (s : State) (i : Nat) (h : (s.station i).state ≠ .leaving) : (s.lowerInFlight i).stt.linkNotes = s.stt.linkNotes ∧ (s.lowerInFlight i).rli = s.rli ∧ (s.lowerInFlight i).ord = s.ord := by
  unfold State.lowerInFlight
  dsimp only
  rw [if_neg]
  · simp
  · rintro ⟨h1, _⟩
    rw [updStation_station] at h1
    split at h1 <;> exact h h1

theorem applyCorrection_station (s : State) (o : Order) (d : Int) (j) : (s.applyCorrection o d).station j
    = (s.correctStation o.station d).station j := by
  unfold State.applyCorrection State.correctSelector State.correctCohort
  repeat' split
  all_goals simp

theorem applyCorrection_cohort (s : State) (o : Order) (d : Int) :
    (∀ c, o.cohort = some c → c < 32 → o.round = s.rck.round → (s.cohort c).span ≠ 0 →
          (s.applyCorrection o d).cohort c = { s.cohort c with
            budget := clampInt (-65535) (s.cohort c).allot ((s.cohort c).budget + d)
            usedRound := min (((s.cohort c).usedRound : Int) - d).toNat 4294967295 })
      ∧ (∀ c, o.cohort ≠ some c ∨ o.round ≠ s.rck.round ∨ (s.cohort c).span = 0
          → (s.applyCorrection o d).cohort c = s.cohort c) := by
  have e : ∀ c, (s.applyCorrection o d).cohort c = ((s.correctStation o.station d).correctCohort o d).cohort c := by
    intro c
    unfold State.applyCorrection State.correctSelector
    repeat' split
    all_goals simp
  refine ⟨fun c h1 h2 h3 h4 => ?_, fun c h => ?_⟩
  · rw [e]
    unfold State.correctCohort
    rw [h1]
    dsimp only
    rw [if_pos]
    · rw [updCohort_cohort_self _ _ h2]
      simp [correctBudget, satCorrect, Config.airtimeMax, Config.counterMax]
    · simp [h3, Cohort.enabled, h4]
  · rw [e]
    unfold State.correctCohort
    cases hc : o.cohort with
    | none => simp
    | some n =>
      dsimp only
      by_cases hn : n = c
      · subst hn
        rw [if_neg]
        · simp
        · rintro ⟨x, y⟩
          simp [Cohort.enabled] at x y
          rcases h with h | h | h
          · exact h hc
          · exact h x
          · exact y h
      · split
        · rw [updCohort_cohort_of_ne _ _ (Ne.symm hn)]; simp
        · simp

theorem applyCorrection_sel (s : State) (o : Order) (d : Int) :
   (s.applyCorrection o d).sel.promptBudget = (if o.kind = .prompt ∧ o.promptPeriod = s.rck.promptPeriod
          then clampInt (-65535) s.sel.promptAllot (s.sel.promptBudget + d) else s.sel.promptBudget)
      ∧ (s.applyCorrection o d).sel.groupBudget = (if o.kind = .group ∧ o.round = s.rck.round
          then clampInt (-65535) s.sel.groupAllot (s.sel.groupBudget + d) else s.sel.groupBudget)
      ∧ (s.applyCorrection o d).rck = { s.rck with
          promptUsed := (if o.kind = .prompt then min ((s.rck.promptUsed : Int) - d).toNat 4294967295
            else s.rck.promptUsed) } := by
  unfold State.applyCorrection
  have h1 := correctCohort_keeps (s.correctStation o.station d) o d
  have h2 : (s.correctStation o.station d).sel = s.sel ∧ (s.correctStation o.station d).rck = s.rck := by simp
  generalize (s.correctStation o.station d).correctCohort o d = u at *
  have u1 : u.sel = s.sel := by simp [h1]
  have u2 : u.rck = s.rck := by simp [h1]
  unfold State.correctSelector
  cases hk : o.kind <;> dsimp only
  · by_cases h : o.round = u.rck.round
    · rw [if_pos h]; rw [u2] at h; simp [h, State.setGroupBudget, u1, u2, correctBudget, Config.airtimeMax]
    · rw [if_neg h]; rw [u2] at h; simp [h, u1, u2]
  · simp [u1, u2]
  · by_cases h : o.promptPeriod = u.rck.promptPeriod
    · rw [if_pos h]; rw [u2] at h; simp [h, u1, u2, correctBudget, Config.airtimeMax, satCorrect]
    · rw [if_neg h]; rw [u2] at h; simp [h, u1, u2, satCorrect]
  · simp [u1, u2]
  · simp [u1, u2]

theorem updateRate_station (s : State) (i q j : Nat) (hi : i < 512) : (s.updateRate i q).station j = if j
    = i then { s.station j with rate := if i = 0 ∨ q = 0 then (s.station j).rate else clampNat 2 2400 ((3 * (s.station j).rate + clampNat 2 2400 q + 2) / 4) } else s.station j := by
  unfold State.updateRate
  by_cases h : i = 0 ∨ q = 0
  · simp [h]
  · rw [if_neg h]
    by_cases hj : j = i
    · subst hj; rw [updStation_station_self _ _ hi]; simp [h, blendRate, clampRate, Config.minRate, Config.maxRate]
    · rw [updStation_station_of_ne _ _ hj]; simp [hj]

theorem correctStation_station (s : State) (i j : Nat) (d : Int) (hi : i < 512) : (s.correctStation i d).station j
    = if j = i then { s.station j with
          balance := if i = 0 then (s.station j).balance
            else clampInt (-(s.mod.config.debtLimitUs : Int)) (s.station j).cap ((s.station j).balance + d)
          usedRound := min (((s.station j).usedRound : Int) - d).toNat 4294967295 } else s.station j := by
  unfold State.correctStation
  by_cases hj : j = i
  · subst hj; rw [updStation_station_self _ _ hi]; simp [clampBalance, satCorrect]
  · rw [updStation_station_of_ne _ _ hj]; simp [hj]

theorem find_order_id {pre post : List Order} {o : Order} {x : Outcome} (h : ∀ p ∈ pre ++ post, p.id ≠ x.id) (ho : o.id
    = x.id) :
    (pre ++ o :: post).find? (fun o => o.id == x.id) = some o := by
  rw [List.find?_append]
  have : pre.find? (fun o => o.id == x.id) = none := by
    simp only [List.find?_eq_none]; intro p hp; simpa using h p (by simp [hp])
  simp [this, ho]

theorem frameFate_leaving (cfg : Configuration) (now : Time) (x : FrameResult) (f : Frame) : frameFate cfg true now x f
    = some x := rfl

theorem requeueFrames_nil (s : State) (i l) : s.requeueFrames i l [] = s := rfl

theorem concludeFrames_leaving (s : State) (o : Order) (x : FrameResult) (fs : List Frame) (h : (s.station o.station).state = .leaving) :
    s.concludeFrames o x fs = s.returnFrames (withResult fs x) := by
  unfold State.concludeFrames
  simp only [h, BEq.rfl]
  have : (fs.filter fun f => (frameFate s.mod.config true s.rck.deviceTime x f).isNone) = [] := by
    simp [frameFate_leaving]
  rw [this, requeueFrames_nil]
  congr 1
  simp [frameFate_leaving, withResult]

theorem acceptOutcome_outstanding (s : State) (x : Outcome) (o : Order) (pre post : List Order)
    (ho : s.ord.outstanding = pre ++ o :: post) (hox : o.id = x.id) (hid : ∀ p ∈ pre ++ post, p.id ≠ x.id) :
    (s.acceptOutcome o x).ord.outstanding = pre ++ post := by
  have hx : s.ord.outstanding.filter (fun y => y.id != o.id)
      = pre ++ post := by rw [ho]; exact filter_order_id (by rw [hox]; exact hid)
  unfold State.acceptOutcome
  dsimp only
  simp [State.removeOrder]
  exact hx

/-- Allocation gives the first id on neither list (R119). -/
theorem allocate_eq (o : Ord) (id : OrderId) (h1 : ∀ p ∈ o.outstanding, p.id ≠ id) (h2 : id ∉ o.quarantine)
    (h3 : ∀ k, k < (id - o.nextId).toNat → o.nextId + BitVec.ofNat 8 k ∈ o.quarantine
      ∨ ∃ p ∈ o.outstanding, p.id = o.nextId + BitVec.ofNat 8 k) : o.allocate = id := by
  unfold Ord.allocate
  set n := (id - o.nextId).toNat with hn
  have hn256 : n < 256 := (id - o.nextId).isLt
  have hid : o.nextId + BitVec.ofNat 8 n = id := by
    rw [hn, BitVec.ofNat_toNat, BitVec.setWidth_eq]; bv_omega
  have hr : List.range 256 = List.range n ++ n :: (List.range' (n+1) (255 - n)) := by
    rw [List.range_eq_range', List.range_eq_range']
    have : 256 = n + (1 + (255 - n)) := by omega
    conv_lhs => rw [this]
    rw [← List.range'_append, ← List.range'_append]
    simp
  rw [hr, List.map_append, List.map_cons, List.find?_append]
  have hnone : (List.map (fun k => o.nextId + BitVec.ofNat 8 k) (List.range n)).find? (fun id => !o.idTaken id)
      = none := by
    simp only [List.find?_eq_none]
    intro x hx
    simp only [List.mem_map, List.mem_range] at hx
    obtain ⟨k, hk, rfl⟩ := hx
    simp only [Bool.not_eq_true', Bool.not_eq_false]
    unfold Ord.idTaken
    rcases h3 k hk with h | ⟨p, hp, h⟩
    · simp [h]
    · simp only [Bool.or_eq_true, List.any_eq_true]
      left; exact ⟨p, hp, by simpa using h⟩
  have hfree : o.idTaken id = false := by
    unfold Ord.idTaken
    simp only [Bool.or_eq_false_iff, List.any_eq_false]
    exact ⟨fun p hp => by simpa using h1 p hp, by simpa using h2⟩
  rw [hnone, hid]
  simp [hfree]

/-- The take of the head of a lane (R31, R3). -/
theorem takeFrames_spec (s : State) (i : Nat) (l : Lane) (taken left : List Frame) (hl : s.lane i l
    = taken ++ left) (ht : taken ≠ []) (hp : i ∉ s.sel.poll) :
   let t := s.takeFrames i l taken.length
   (∀ j k, t.lane j k = if (j, k) = (i, l) then left else s.lane j k)
   ∧ (∀ j, t.station j = if j = i ∧ i ≠ 0 ∧ (s.station i).state = .backlogged
       ∧ (t.lanesOf i).allEmpty = true then { s.station j with state := .idle } else s.station j)
   ∧ t.fpl = { s.fpl with lanes := t.fpl.lanes, expiry := s.fpl.expiry.filter fun e => !taken.any fun f => f.sequence == e.sequence }
   ∧ t.stt.linkNotes = s.stt.linkNotes ∧ t.rli = s.rli ∧ t.ord = s.ord := by
  have hi : i < 512 := lt_of_lane_ne_nil (s := s) (l := l) (by rw [hl]; simp [ht])
  dsimp only
  unfold State.takeFrames
  have hd : (s.lane i l).drop taken.length = left := by rw [hl]; simp
  have hk : (s.lane i l).take taken.length = taken := by rw [hl]; simp
  dsimp only
  simp only [hd, hk]
  set u := (s.setLane i l left).updFpl fun p => { p with expiry := leaveExpiry p.expiry taken } with hu
  have u1 : ∀ j k, u.lane j k = if (j, k) = (i, l) then left else s.lane j k := by
    intro j k
    have : u.lane j k = (s.setLane i l left).lane j k := rfl
    rw [this, setLane_lane]
    by_cases h : (j, k) = (i, l)
    · have : j = i := congrArg Prod.fst h
      simp [h, this, hi, Config.stationCount]
    · simp only [h, false_and, if_false]
  have u2 : ∀ j, u.station j = s.station j := fun _ => rfl
  have u3 : u.fpl = { s.fpl with lanes := u.fpl.lanes, expiry := s.fpl.expiry.filter fun e => !taken.any fun f => f.sequence == e.sequence } := rfl
  have u4 : u.stt = s.stt ∧ u.rli = s.rli ∧ u.ord = s.ord ∧ u.sel = s.sel := ⟨rfl, rfl, rfl, rfl⟩
  clear_value u
  by_cases h : left = []
  · rw [if_pos (by simpa using h)]
    have hr := laneEmpty_radio u i l (by right; right; right; rw [u4.2.2.2]; exact hp)
    refine ⟨?_, ?_, ?_, ?_, ?_, ?_⟩
    · simpa using u1
    · intro j
      rw [laneEmpty_station _ _ _ _ hi]
      simp only [laneEmpty_keeps, u2]
    · simpa using u3
    · rw [hr.1, u4.1]
    · rw [hr.2.1, u4.2.1]
    · rw [hr.2.2, u4.2.2.1]
  · rw [if_neg (by simpa using h)]
    refine ⟨u1, ?_, u3, by rw [u4.1], u4.2.1, u4.2.2.1⟩
    intro j
    rw [if_neg, u2]
    rintro ⟨_, _, _, hh⟩
    have : u.lane i l = [] := (Lanes.allEmpty_iff _).mp hh l
    rw [u1, if_pos rfl] at this
    exact h this

theorem placeHeld_strip (k : Nat) (os : List Order) : (placeHeld k os).map (fun p => { p with sent := .waiting })
    = os.map (fun p => { p with sent := .waiting }) := by
  induction os generalizing k with
  | nil => cases k <;> rfl
  | cons o os ih =>
    cases k with
    | zero => rfl
    | succ k =>
      unfold placeHeld
      split
      · simp [ih]
      · simp [ih]

theorem placeHeld_zero (os : List Order) : placeHeld 0 os = os := by cases os <;> rfl

/-- The slots given out when a TX_ORDER has come to wait (R123, R183). -/
theorem serveOrders_spec (s : State) :
   s.serveOrders.ord.outstanding.map (fun p => { p with sent := .waiting })
       = s.ord.outstanding.map (fun p => { p with sent := .waiting })
   ∧ (s.radioFree = 0 → s.serveOrders.ord = s.ord ∧ s.serveOrders.rli = s.rli
       ∧ s.serveOrders.stt.linkNotes = s.stt.linkNotes)
   ∧ (∀ os o, 0 < s.radioFree → s.ord.cancelPending = false → s.stt.linkNotes = [] → s.ord.outstanding = os ++ [o]
       → (∀ p ∈ os, p.sent = .placed) → o.sent = .waiting →
       s.serveOrders.ord = { s.ord with outstanding := os ++ [{ o with sent := .placed }] }
       ∧ s.serveOrders.rli = { s.rli with outbound := s.rli.outbound ++ [.txOrder o.toTxOrder] }
           ∧ s.serveOrders.stt.linkNotes = []) := by
  refine ⟨?_, fun h => ?_, fun os o h1 h2 h3 h4 h5 h6 => ?_⟩
  · unfold State.serveOrders State.giveOrders
    simp only [updOrd_ord, updRli_ord, placeHeld_strip]
    simp
  · have hc : s.giveCancel = s := by unfold State.giveCancel; rw [if_neg]; simp [h]
    have hn : s.serveNotes = s := by
      unfold State.serveNotes; rw [hc]
      unfold State.giveNotes
      have : s.notesServed s.stt.linkNotes.length = 0 := by unfold State.notesServed; split <;> simp [h]
      simp [this, State.updRli, State.updStt]
    unfold State.serveOrders; rw [hn]
    unfold State.giveOrders
    have : s.ordersServed s.ord.outstanding.length = 0 := by unfold State.ordersServed; split <;> simp [h]
    simp [this, placeHeld_zero]
  · have hc : s.giveCancel = s := by unfold State.giveCancel; rw [if_neg]; simp [h2]
    have hn : s.serveNotes = s := by
      unfold State.serveNotes; rw [hc]
      unfold State.giveNotes
      have : s.notesServed s.stt.linkNotes.length = 0 := by unfold State.notesServed; split <;> simp [h3]
      simp [this, State.updRli, State.updStt]
    have hh : heldOrders s.ord.outstanding = [o] := by
      rw [h4]; unfold heldOrders; rw [List.filter_append]
      have : os.filter (fun o => o.sent == .waiting) = [] := by
        simp only [List.filter_eq_nil_iff]; intro p hp; simp [h5 p hp]
      simp [this, h6]
    have hk : s.ordersServed s.ord.outstanding.length = 1 := by
      unfold State.ordersServed; simp [h2, h3, hh]
      have : s.ord.outstanding.length = os.length + 1 := by rw [h4]; simp
      omega
    have hp : ∀ pre : List Order, (∀ p ∈ pre, p.sent = .placed)
        → placeHeld 1 (pre ++ [o]) = pre ++ [{ o with sent := .placed }] := by
      intro pre hpre
      induction pre with
      | nil => simp [placeHeld, h6]
      | cons a l ih =>
        have := hpre a (by simp)
        simp [placeHeld, this]
        exact ih (fun p hp => hpre p (by simp [hp]))
    unfold State.serveOrders; rw [hn]
    unfold State.giveOrders
    simp only [hk, hh, updOrd_ord, updRli_ord, updOrd_rli, updRli_rli]
    refine ⟨by rw [h4, hp os h5], by simp, by simp [h3]⟩

theorem estimate_eq (cfg : Configuration) (rate) (taken : List Frame) : estimate cfg rate taken
    = min (cfg.orderOverheadUs
      + (taken.map fun f => cfg.subframeUs + (f.length * 16 + rate - 1) / rate).sum) 65535 := rfl

end Sys2Proof.Machine
end

