-- ==== Sys2Proof/Laws/SoftReset.lean ====
section
/-!
SUPPORT. The soft reset (R167): the flush of every station (R46), the blocks, and the cancelled orders (R138).
-/

namespace Sys2Proof.Machine

def flushList (is : List Nat) (s : State) : State := is.foldl (fun t i => t.returnLanes i .flushed allLanes) s

theorem mem_allLanes (k : Lane) : k ∈ allLanes := by cases k <;> simp [allLanes]

theorem flushStation_lanesOf (s : State) (i j) : (s.returnLanes i .flushed allLanes).lanesOf j = if j
    = i then .empty else s.lanesOf j := by
  apply Lanes.ext_get
  intro k
  show State.lane _ j k = _
  rw [returnLanes_lane]
  by_cases h : j = i
  · simp [h, mem_allLanes]
  · simp [h]; rfl

theorem holdsAny_all (s : State) (i) : s.holdsAny i allLanes = !(s.lanesOf i).allEmpty := by
  simp [State.holdsAny, allLanes, State.lane, Lanes.get, Lanes.allEmpty, Bool.or_assoc]

theorem flushStation_station (s : State) (i j) : (s.returnLanes i .flushed allLanes).station j = if j = i ∧ i ≠ 0
    ∧ (s.station i).state = .backlogged ∧ (s.lanesOf i).allEmpty
    = false then { s.station j with state := .idle } else s.station j := by
  rw [returnLanes_station, holdsAny_all, flushStation_lanesOf]
  simp [Lanes.empty, Lanes.allEmpty, or_assoc, imp_iff_not_or]
  done

theorem flushList_spec (is : List Nat) (hn : is.Nodup) (s : State) :
   (∀ j, (flushList is s).lanesOf j = if j ∈ is then .empty else s.lanesOf j)
   ∧ (∀ j, (flushList is s).station j = if j ∈ is ∧ j ≠ 0 ∧ (s.station j).state = .backlogged
       ∧ (s.lanesOf j).allEmpty = false then { s.station j with state := .idle } else s.station j)
   ∧ (flushList is s).fpl.returnList
       = s.fpl.returnList ++ is.flatMap (fun i => (s.lanesOf i).inOrder.map (fun f => ⟨f, .flushed⟩)) := by
  induction is generalizing s with
  | nil => simp [flushList]
  | cons i is ih =>
    obtain ⟨h1, h2⟩ := List.nodup_cons.mp hn
    have e : flushList (i :: is) s = flushList is (s.returnLanes i .flushed allLanes) := rfl
    obtain ⟨b1, b2, b3⟩ := ih h2 (s.returnLanes i .flushed allLanes)
    rw [e]
    refine ⟨?_, ?_, ?_⟩
    · intro j
      rw [b1, flushStation_lanesOf]
      by_cases hj : j = i <;> by_cases hm : j ∈ is <;> simp [hj, hm]
    · intro j
      rw [b2, flushStation_station, flushStation_lanesOf]
      by_cases hj : j = i
      · subst hj; simp [h1]
      · simp [hj]
    · rw [b3, returnLanes_returnList _ _ _ _ (by decide)]
      have : is.flatMap (fun i_1 => ((s.returnLanes i .flushed allLanes).lanesOf i_1).inOrder.map (fun f => (⟨f, .flushed⟩ : Returning))) = is.flatMap (fun i => (s.lanesOf i).inOrder.map (fun f => ⟨f, .flushed⟩)) := by
        apply List.flatMap_congr
        intro j hj
        rw [flushStation_lanesOf, if_neg]
        rintro rfl
        exact h1 hj
      rw [this]
      simp [withResult, allLanes, State.lane, Lanes.get, Lanes.inOrder]

theorem formNote_full (s : State) (n) (h : s.radioFree = 0) : (s.formNote n).rli = s.rli
    ∧ (s.formNote n).ord = s.ord := by
  unfold State.formNote State.serveNotes State.giveCancel State.giveNotes State.notesServed
  simp [h]

theorem formNote_served (s : State) (n) (x) (h : s.ord.cancelPending = false) : (s.formNote n).ord.cancelPending
    = false ∧ (x ∈ s.rli.outbound → x ∈ (s.formNote n).rli.outbound) := by
  unfold State.formNote State.serveNotes State.giveCancel State.giveNotes State.notesServed
  simp [h]
  tauto

theorem laneEmpty_cancelAll (s : State) (i l) (h : (s.ord.cancelPending = true ∧ s.radioFree = 0)
    ∨ (s.ord.cancelPending = false ∧ .cancelAll ∈ s.rli.outbound)) :
   ((s.laneEmpty i l).ord.cancelPending = true ∧ (s.laneEmpty i l).radioFree = 0)
       ∨ ((s.laneEmpty i l).ord.cancelPending = false ∧ .cancelAll ∈ (s.laneEmpty i l).rli.outbound) := by
  by_cases hw : i ≠ 0 ∧ (s.station i).state = .dozing ∧ (s.lanesOf i).allEmpty = true ∧ i ∈ s.sel.poll
  · rw [laneEmpty_withdraws s i l hw.1 hw.2.1 hw.2.2.1 hw.2.2.2]
    unfold State.formPollEmpty
    split
    · simpa using h
    · rcases h with h | h
      · left
        have := formNote_full (s.removePoll i) (.pollEmpty i) (by simpa [State.radioFree] using h.2)
        rw [this.2]
        unfold State.radioFree
        rw [this.1]
        simpa [State.radioFree] using h
      · right
        have := formNote_served (s.removePoll i) (.pollEmpty i) .cancelAll (by simpa using h.1)
        exact ⟨this.1, this.2 (by simpa using h.2)⟩
  · have := laneEmpty_radio s i l (by by_contra hc; push Not at hc; simp at hc; exact hw ⟨hc.1, hc.2.1, by simpa using hc.2.2.1, hc.2.2.2⟩)
    unfold State.radioFree
    rw [this.2.1, this.2.2]
    exact h

theorem returnLanes_cancelAll (ls) (s : State) (i x) (h : (s.ord.cancelPending = true ∧ s.radioFree = 0)
    ∨ (s.ord.cancelPending = false ∧ .cancelAll ∈ s.rli.outbound)) :
   ((s.returnLanes i x ls).ord.cancelPending = true ∧ (s.returnLanes i x ls).radioFree = 0)
       ∨ ((s.returnLanes i x ls).ord.cancelPending = false ∧ .cancelAll ∈ (s.returnLanes i x ls).rli.outbound) := by
  induction ls generalizing s with
  | nil => exact h
  | cons l ls ih =>
    apply ih (s.returnLane i x l)
    unfold State.returnLane
    split
    · exact h
    · apply laneEmpty_cancelAll
      simpa using h

theorem flushList_cancelAll (is) (s : State) (h : (s.ord.cancelPending = true ∧ s.radioFree = 0)
    ∨ (s.ord.cancelPending = false ∧ .cancelAll ∈ s.rli.outbound)) :
   ((flushList is s).ord.cancelPending = true ∧ (flushList is s).radioFree = 0)
       ∨ ((flushList is s).ord.cancelPending = false ∧ .cancelAll ∈ (flushList is s).rli.outbound) := by
  induction is generalizing s with
  | nil => exact h
  | cons l ls ih => exact ih _ (returnLanes_cancelAll _ _ _ _ h)

/-- The soft reset of the blocks behind the cancelled orders and the flush (R167). -/
theorem softResetBlocks_spec (c : State) :
   c.softResetBlocks.mod = { c.mod with
          mode := .ready, causes := .empty, alertsSent := 0
          pendingAlert := c.mod.pendingAlert || decide (c.mod.mode ≠ .ready) || decide (c.mod.causes ≠ .empty) }
   ∧ c.softResetBlocks.cli = { c.cli with clShortRecords := 0, clBadDirection := 0 }
   ∧ c.softResetBlocks.fpl = { c.fpl with framesAccepted := 0, framesRefused := 0, framesRequeued := 0, framesExpired := 0, tokenNotices := 0 }
   ∧ c.softResetBlocks.sel = { c.sel with active := [], prompt := [], poll := [], groupDue := false }
   ∧ c.softResetBlocks.rck = { c.rck with
          clocksRunning := false, promptUsed := 0, postscaler := 0, skipped := 0
          reportsSent := 0, reportsSkipped := 0 }
   ∧ c.softResetBlocks.mgd = { c.mgd with
          mediumAlerts := 0, mediumReports := 0, reportsBlanked := 0, linkRaises := 0, mediumIgnored := 0 }
   ∧ c.softResetBlocks.rli = { c.rli with rlMalformed := 0, rlOverrun := 0 }
   ∧ c.softResetBlocks.stt.radioIgnored = 0
   ∧ (∀ i, i < 512 → c.softResetBlocks.station i = (c.station i).softReset c.mod.config)
   ∧ (∀ k, k < 32 → c.softResetBlocks.cohort k
       = { c.cohort k with stagedSpan := none, stagedCapPm := none, usedRound := 0 }) := by
  unfold State.softResetBlocks
  dsimp only
  refine ⟨?_, ?_, ?_, ?_, ?_, ?_, ?_, ?_, ?_, ?_⟩
  · unfold State.softResetMode
    by_cases h1 : c.mod.causes = .empty <;> by_cases h2 : c.mod.mode = .ready <;> simp [h1, h2, State.setMode,
        State.setPendingAlert]
  · simp [State.clearLinkCounters]
  · simp [State.clearFplCounters]
  · simp [State.clearSelectorLists]
  · simp [State.softResetClocks]
  · simp [State.clearMgdCounters]
  · simp [State.clearLinkCounters]
  · simp [State.softResetStations]
  · intro i hi
    simp only [softResetMode_keeps, clearLinkCounters_keeps, clearFplCounters_keeps, clearMgdCounters_keeps,
        softResetClocks_keeps, softResetCohorts_keeps, clearSelectorLists_keeps]
    unfold State.softResetStations State.updStt State.station
    simp [Table.get_mapIdx, hi, Config.stationCount]
  · intro k hk
    simp only [softResetMode_keeps, clearLinkCounters_keeps, clearFplCounters_keeps, clearMgdCounters_keeps,
        softResetClocks_keeps]
    unfold State.softResetCohorts State.cohort State.updCoh
    simp [Table.get_mapIdx, hk, Config.cohortCount]

/-- The soft reset of ORD (R138). -/
theorem softResetOrders_spec (u : State) :
   u.softResetOrders.fpl = { u.fpl with returnList := u.fpl.returnList ++ u.ord.outstanding.flatMap (fun o => o.frames.map (fun f => ⟨f, .aborted⟩)) }
   ∧ u.softResetOrders.ord.outstanding = [] ∧ u.softResetOrders.ord.lossCount = 0
       ∧ u.softResetOrders.ord.counters = .zero
   ∧ u.softResetOrders.ord.quarantine = (u.ord.outstanding.map Order.id).drop (u.ord.outstanding.length - 8)
   ∧ ((u.softResetOrders.ord.cancelPending = true ∧ u.softResetOrders.radioFree = 0)
       ∨ (u.softResetOrders.ord.cancelPending = false ∧ .cancelAll ∈ u.softResetOrders.rli.outbound))
   ∧ (∀ j, (u.station j).state ≠ .leaving → u.softResetOrders.station j
       = { u.station j with inFlight := (u.station j).inFlight - u.ordersNaming j }) := by
  unfold State.softResetOrders
  set a := u.updOrd fun o => { o with quarantine := [] } with ha
  have hf := cancelFold_ord a.ord.outstanding a (by simp [ha])
  have hst := cancelFold_station a.ord.outstanding a
  refine ⟨?_, ?_, rfl, rfl, ?_, ?_, ?_⟩
  · simp only [updOrd_fpl]
    unfold State.cancelOrders
    simp only [requestCancelAll_keeps, hf.2.2.2]
    rfl
  · simp only [updOrd_ord]
    unfold State.cancelOrders
    simp only [requestCancelAll_keeps, hf.1]
    apply List.filter_eq_nil_iff.mpr
    intro o ho hh
    have := List.all_eq_true.mp hh o ho
    rw [bne_self_eq_false] at this
    exact Bool.false_ne_true this
  · simp only [updOrd_ord]
    unfold State.cancelOrders
    simp only [requestCancelAll_keeps, hf.2.1]
    simp [ha]
  · simp only [updOrd_ord, updOrd_rli, updOrd_radioFree]
    unfold State.cancelOrders State.requestCancelAll State.giveCancel State.radioFree Config.radioOutbound
    simp only [updOrd_rli, updOrd_ord, Bool.true_and, decide_eq_true_eq]
    by_cases hr : (List.foldl State.cancelOrder a a.ord.outstanding).rli.outbound.length < 8
    · right; simp [hr]
    · left; simp [hr]; omega
  · intro j hl
    simp only [updOrd_station]
    unfold State.cancelOrders
    simp only [requestCancelAll_keeps]
    rw [hst j hl]
    rfl

theorem flushAll_eq (b : State) : b.flushAll = flushList (List.range 512) b := by
  unfold State.flushAll flushList Config.stationCount
  rfl

/-- The flush of every station (R46). -/
theorem flushAll_spec (s : State) :
   (∀ j, (s.flushAll).lanesOf j = if j < 512 then .empty else s.lanesOf j)
   ∧ (∀ j, (s.flushAll).station j = if j < 512 ∧ j ≠ 0 ∧ (s.station j).state = .backlogged
       ∧ (s.lanesOf j).allEmpty = false then { s.station j with state := .idle } else s.station j)
   ∧ (s.flushAll).fpl.returnList
       = s.fpl.returnList ++ (List.range 512).flatMap (fun i => (s.lanesOf i).inOrder.map (fun f => ⟨f, .flushed⟩))
   ∧ ((s.ord.cancelPending = true ∧ s.radioFree = 0) ∨ (s.ord.cancelPending = false ∧ .cancelAll ∈ s.rli.outbound)
       → ((s.flushAll).ord.cancelPending = true ∧ (s.flushAll).radioFree = 0)
       ∨ ((s.flushAll).ord.cancelPending = false ∧ .cancelAll ∈ (s.flushAll).rli.outbound)) := by
  rw [flushAll_eq]
  have h := flushList_spec (List.range 512) List.nodup_range s
  have h2 := flushList_cancelAll (List.range 512) s
  simp only [List.mem_range] at h
  exact ⟨h.1, h.2.1, h.2.2, h2⟩

theorem softReset_spec (u : State) : ∃ c b : State, u.softReset = c.softResetBlocks ∧ c = b.flushAll
    ∧ b = u.softResetOrders := ⟨_, _, rfl, rfl, rfl⟩

end Sys2Proof.Machine
end

