-- ==== Sys2Proof/Laws/Cancel.lean ====
section
/-!
SUPPORT. Cancelled orders of LEAVING stations (R8, R137): what becomes of the station records, and the UNBIND notes with
the radio line they join (R183).
-/

namespace Sys2Proof.Machine

/-! ## Station records -/

/-- One concluded order of a station (R8, R17). -/
theorem lowerInFlight_any (s : State) (i j : Nat) :
    (s.lowerInFlight i).station j = if i = j ∧ (s.station j).state = .leaving ∧ (s.station j).inFlight ≤ 1
      then .cleared (s.station j).cohort
      else { s.station j with
        inFlight := if i = j then (s.station j).inFlight - 1 else (s.station j).inFlight } := by
  by_cases hl : (s.station j).state = .leaving
  · have hj : j < 512 := by
      by_contra c
      rw [station_of_le _ (by omega)] at hl
      simp [Station.cleared] at hl
    unfold State.lowerInFlight
    dsimp only
    by_cases hij : i = j
    · subst hij
      rw [updStation_station_self _ _ hj]
      simp only [hl, true_and]
      by_cases h1 : (s.station i).inFlight ≤ 1
      · rw [if_pos (by omega), if_pos h1]
        simp only [formNote_keeps]
        unfold State.clearStation
        rw [updStation_station_self _ _ hj, updStation_station_self _ _ hj]
      · rw [if_neg (by omega), if_neg h1, updStation_station_self _ _ hj]
        simp [hl]
    · have h1 : ¬ (i = j ∧ (s.station j).state = .leaving ∧ (s.station j).inFlight ≤ 1) := fun h => hij h.1
      rw [if_neg h1, if_neg hij]
      split
      · simp only [formNote_keeps]
        unfold State.clearStation
        rw [updStation_station_of_ne _ _ (Ne.symm hij), updStation_station_of_ne _ _ (Ne.symm hij)]
      · rw [updStation_station_of_ne _ _ (Ne.symm hij)]
  · have h1 : ¬ (i = j ∧ (s.station j).state = .leaving ∧ (s.station j).inFlight ≤ 1) := fun h => hl h.2.1
    rw [lowerInFlight_station s i j hl, if_neg h1]

/-- One cancelled order (R137, R8). -/
theorem cancelOrder_any (s : State) (o : Order) (j : Nat) :
    (s.cancelOrder o).station j = if o.station = j ∧ (s.station j).state = .leaving ∧ (s.station j).inFlight ≤ 1
      then .cleared (s.station j).cohort
      else { s.station j with
        inFlight := if o.station = j then (s.station j).inFlight - 1 else (s.station j).inFlight } := by
  unfold State.cancelOrder
  dsimp only
  simp only [countOrd_keeps]
  rw [lowerInFlight_any]
  simp

/-- Every order of a list cancelled in turn (R137, R8). -/
theorem cancelFold_any (os : List Order) (s : State) (j : Nat) :
    (os.foldl State.cancelOrder s).station j =
      if (s.station j).state = .leaving ∧ 0 < os.countP (fun o => o.station == j)
          ∧ (s.station j).inFlight ≤ os.countP (fun o => o.station == j)
      then .cleared (s.station j).cohort
      else { s.station j with inFlight := (s.station j).inFlight - os.countP fun o => o.station == j } := by
  induction os generalizing s with
  | nil => simp
  | cons o os ih =>
    simp only [List.foldl_cons]
    rw [ih, cancelOrder_any]
    simp only [List.countP_cons, beq_iff_eq]
    generalize s.station j = x
    generalize os.countP (fun o => o.station == j) = n
    by_cases hs : o.station = j
    · simp only [hs, if_true, true_and]
      by_cases hl : x.state = .leaving
      · by_cases h1 : x.inFlight ≤ 1
        · have h2 : x.inFlight ≤ n + 1 := by omega
          simp [hl, h1, h2, Station.cleared]
        · by_cases h2 : x.inFlight ≤ n + 1
          · have h3 : 0 < n ∧ x.inFlight - 1 ≤ n := by omega
            simp [hl, h1, h2, h3]
          · have h3 : ¬ (x.inFlight - 1 ≤ n) := by omega
            have h4 : x.inFlight - 1 - n = x.inFlight - (n + 1) := by omega
            simp [hl, h1, h2, h3, h4]
      · have h4 : x.inFlight - 1 - n = x.inFlight - (n + 1) := by omega
        simp [hl, h4]
    · simp [hs]

/-! ## The radio line -/

/-- The notes handed while no CANCEL_ALL waits (R183). -/
theorem giveNotes_line (s : State) (h : s.ord.cancelPending = false) :
    (s.giveNotes s.stt.linkNotes.length).rli = { s.rli with
      outbound := (s.rli.outbound ++ s.stt.linkNotes.map LinkNote.toRecord).take (max s.rli.outbound.length 8) } := by
  unfold State.giveNotes State.notesServed State.radioFree Config.radioOutbound
  dsimp only [State.updRli, State.updStt]
  rw [h, List.take_append, List.take_of_length_le (le_max_left _ _), ← List.map_take]
  congr 3
  rw [if_neg (by simp), List.take_eq_take_iff]
  omega

/-- No note is handed while a CANCEL_ALL waits (R183). -/
theorem giveNotes_shut (s : State) (k : Nat) (h : s.ord.cancelPending = true) : (s.giveNotes k).rli = s.rli := by
  unfold State.giveNotes State.notesServed
  simp [h]

/-- What a note that joins the line leaves of it (R6, R183): a free slot goes to the head of the line while there is
one. -/
theorem formNote_line (s : State) (n : LinkNote) :
    (s.formNote n).radioLine = s.radioLine ++ [n.toRecord]
      ∧ (s.formNote n).rli = { s.rli with
          outbound := (s.radioLine ++ [n.toRecord]).take (max s.rli.outbound.length 8) }
      ∧ (s.formNote n).ord = { s.ord with cancelPending := s.ord.cancelPending && decide (s.radioFree = 0) } := by
  refine ⟨formNote_radioLine s n, ?_⟩
  unfold State.formNote State.serveNotes
  set u := s.updStt fun t => { t with linkNotes := t.linkNotes ++ [n] } with hu
  have u1 : u.rli = s.rli := rfl
  have u2 : u.ord = s.ord := rfl
  have u3 : u.radioFree = s.radioFree := rfl
  have u4 : u.stt.linkNotes = s.stt.linkNotes ++ [n] := rfl
  clear_value u
  have hl : s.rli.outbound.length ≤ s.radioLine.length := by simp [State.radioLine]
  rw [giveNotes_ord]
  unfold State.giveCancel
  rw [u2, u3]
  cases hc : s.ord.cancelPending
  · rw [if_neg (by simp)]
    refine ⟨?_, by rw [u2]; cases h : s.ord; simp_all⟩
    rw [giveNotes_line _ (by rw [u2, hc]), u1, u4]
    simp [State.radioLine, hc]
  · by_cases hf : 0 < s.radioFree
    · rw [if_pos (by simp [hf])]
      have hlen : s.rli.outbound.length < 8 := by
        unfold State.radioFree Config.radioOutbound at hf; omega
      refine ⟨?_, by simp [u2, Nat.pos_iff_ne_zero.mp hf]⟩
      have := giveNotes_line ((u.updRli fun r => { r with outbound := r.outbound ++ [.cancelAll] }).updOrd
        fun o => { o with cancelPending := false }) rfl
      dsimp only [State.updRli, State.updOrd] at this ⊢
      rw [this, u1, u4]
      congr 1
      have e1 : max (s.rli.outbound ++ [RadioRecord.cancelAll]).length 8 = 8 := by simp; omega
      have e2 : max s.rli.outbound.length 8 = 8 := by omega
      rw [e1, e2]
      simp [State.radioLine, hc]
    · have hz : s.radioFree = 0 := by omega
      rw [if_neg (by simp [hf])]
      have hlen : 8 ≤ s.rli.outbound.length := by
        unfold State.radioFree Config.radioOutbound at hz; omega
      refine ⟨?_, by rw [u2]; cases h : s.ord; simp_all⟩
      rw [giveNotes_shut _ _ (by rw [u2, hc]), u1]
      have : (s.radioLine ++ [n.toRecord]).take (max s.rli.outbound.length 8) = s.rli.outbound := by
        unfold State.radioLine
        rw [List.append_assoc, List.append_assoc, List.take_append_of_le_length (by omega),
          List.take_of_length_le (by omega)]
      rw [this]

/-! ## The notes of cancelled orders -/

/-- The LEAVING stations of a list of orders, in the order of their last orders. -/
def State.goneOf (s : State) (os : List Order) : List Nat :=
  (os.map Order.station).reverse.eraseDups.reverse.filter fun i => (s.station i).state == .leaving

theorem goneOf_cons (s : State) (o : Order) (os : List Order) :
    s.goneOf (o :: os) = (if o.station ∉ os.map Order.station ∧ (s.station o.station).state = .leaving
      then [o.station] else []) ++ s.goneOf os := by
  unfold State.goneOf
  simp only [List.map_cons, List.reverse_cons, List.eraseDups_append, List.reverse_append, List.filter_append]
  congr 1
  generalize os.map Order.station = q
  have e : [o.station].eraseDups = [o.station] := rfl
  by_cases h : o.station ∈ q
  · simp [List.removeAll, h]
  · by_cases hl : (s.station o.station).state = .leaving <;> simp [List.removeAll, h, hl, e]

theorem mem_goneOf (s : State) (os : List Order) (i : Nat) :
    i ∈ s.goneOf os ↔ i ∈ os.map Order.station ∧ (s.station i).state = .leaving := by
  unfold State.goneOf
  simp

/-- One cancelled order forms an UNBIND note or leaves the radio line alone (R8, R137). -/
theorem cancelOrder_radio (s : State) (o : Order) :
    ((s.station o.station).state = .leaving ∧ (s.station o.station).inFlight ≤ 1 →
      (s.cancelOrder o).radioLine = s.radioLine ++ [RadioRecord.unbind o.station]
        ∧ (s.cancelOrder o).rli = { s.rli with
            outbound := (s.radioLine ++ [RadioRecord.unbind o.station]).take (max s.rli.outbound.length 8) }
        ∧ (s.cancelOrder o).ord.cancelPending = (s.ord.cancelPending && decide (s.radioFree = 0)))
    ∧ (¬ ((s.station o.station).state = .leaving ∧ (s.station o.station).inFlight ≤ 1) →
      (s.cancelOrder o).radioLine = s.radioLine ∧ (s.cancelOrder o).rli = s.rli
        ∧ (s.cancelOrder o).stt.linkNotes = s.stt.linkNotes
        ∧ (s.cancelOrder o).ord.cancelPending = s.ord.cancelPending) := by
  unfold State.cancelOrder
  dsimp only
  set u := ((s.removeOrder o.id).quarantineId o.id).returnFrames (withResult o.frames .aborted) with hu
  have u1 : u.rli = s.rli ∧ u.stt = s.stt ∧ u.ord.cancelPending = s.ord.cancelPending := by
    rw [hu]
    unfold State.quarantineId
    split <;> simp [State.removeOrder, State.returnFrames, State.countOrd]
  clear_value u
  obtain ⟨h1, h2, h3⟩ := u1
  have h4 : ∀ j, u.station j = s.station j := fun j => by simp [State.station, h2]
  have h5 : u.radioLine = s.radioLine := by simp [State.radioLine, h1, h2, h3]
  have h6 : u.radioFree = s.radioFree := by simp [State.radioFree, h1]
  have hc : ∀ (t : State) (f : OrdCounters → OrdCounters), (t.countOrd f).radioLine = t.radioLine
      ∧ (t.countOrd f).rli = t.rli ∧ (t.countOrd f).stt = t.stt
      ∧ (t.countOrd f).ord.cancelPending = t.ord.cancelPending := fun _ _ => ⟨rfl, rfl, rfl, rfl⟩
  simp only [hc]
  unfold State.lowerInFlight
  dsimp only
  have hi : (s.station o.station).state = .leaving → o.station < 512 := fun h => by
    by_contra c
    rw [station_of_le _ (by omega)] at h
    simp [Station.cleared] at h
  have hst : ((u.updStation o.station fun x => { x with inFlight := x.inFlight - 1 }).station o.station).state
      = (s.station o.station).state := by
    rw [updStation_station]
    split <;> simp [h4]
  refine ⟨fun ⟨a, b⟩ => ?_, fun h => ?_⟩
  · rw [if_pos (by rw [updStation_station_self _ _ (hi a), h4]; exact ⟨a, by simp; omega⟩)]
    obtain ⟨g1, g2, g3⟩ := formNote_line
      ((u.updStation o.station fun x => { x with inFlight := x.inFlight - 1 }).clearStation o.station)
      (.unbind o.station)
    have k1 : ((u.updStation o.station fun x => { x with inFlight := x.inFlight - 1 }).clearStation
        o.station).radioLine = s.radioLine := h5
    have k2 : ((u.updStation o.station fun x => { x with inFlight := x.inFlight - 1 }).clearStation
        o.station).rli = s.rli := h1
    have k3 : ((u.updStation o.station fun x => { x with inFlight := x.inFlight - 1 }).clearStation
        o.station).radioFree = s.radioFree := h6
    have k4 : ((u.updStation o.station fun x => { x with inFlight := x.inFlight - 1 }).clearStation
        o.station).ord.cancelPending = s.ord.cancelPending := h3
    rw [g1, g2, g3, k1, k2, k3, k4]
    exact ⟨rfl, rfl, rfl⟩
  · rw [if_neg]
    · exact ⟨h5, h1, by simp [h2], h3⟩
    · rw [hst]
      rintro ⟨a, b⟩
      rw [updStation_station_self _ _ (hi a), h4] at b
      exact h ⟨a, by simp at b; omega⟩

/-- Cancelled orders whose stations' in_flight counts are theirs (R8, R137, R183): one UNBIND for each LEAVING station,
in the order of their last orders. -/
theorem cancelFold_radio (os : List Order) (s : State) :
    (s.goneOf os = [] → (os.foldl State.cancelOrder s).radioLine = s.radioLine
        ∧ (os.foldl State.cancelOrder s).rli = s.rli
        ∧ (os.foldl State.cancelOrder s).stt.linkNotes = s.stt.linkNotes
        ∧ (os.foldl State.cancelOrder s).ord.cancelPending = s.ord.cancelPending)
    ∧ (s.goneOf os ≠ [] →
        (∀ i ∈ s.goneOf os, (s.station i).inFlight = os.countP fun o => o.station == i) →
        (os.foldl State.cancelOrder s).radioLine = s.radioLine ++ (s.goneOf os).map RadioRecord.unbind
        ∧ (os.foldl State.cancelOrder s).rli = { s.rli with
            outbound := (s.radioLine ++ (s.goneOf os).map RadioRecord.unbind).take (max s.rli.outbound.length 8) }
        ∧ (os.foldl State.cancelOrder s).ord.cancelPending
          = (s.ord.cancelPending && decide (s.radioFree = 0))) := by
  induction os generalizing s with
  | nil => simp [State.goneOf]
  | cons o os ih =>
    simp only [List.foldl_cons]
    obtain ⟨a1, a2⟩ := ih (s.cancelOrder o)
    obtain ⟨b1, b2⟩ := cancelOrder_radio s o
    have hany := cancelOrder_any s o
    generalize s.cancelOrder o = t at *
    generalize os.foldl State.cancelOrder t = w at *
    have hst : ∀ i ∈ os.map Order.station,
        (o.station = i → (s.station i).state = .leaving → 1 < (s.station i).inFlight) →
        (t.station i).state = (s.station i).state := by
      intro i _ h
      rw [hany, if_neg]
      rintro ⟨x, y, z⟩
      have := h x y
      omega
    have hg : (∀ i ∈ os.map Order.station, o.station = i → (s.station i).state = .leaving →
        1 < (s.station i).inFlight) → t.goneOf os = s.goneOf os := by
      intro h
      unfold State.goneOf
      apply List.filter_congr
      intro i hi
      have hi' : i ∈ os.map Order.station := by simpa using hi
      rw [hst i hi' (h i hi')]
    refine ⟨fun h => ?_, fun h hf => ?_⟩
    · have hno : (s.station o.station).state ≠ .leaving := fun e => by
        have : o.station ∈ s.goneOf (o :: os) := (mem_goneOf ..).mpr ⟨by simp, e⟩
        rw [h] at this
        simp at this
      have hos : s.goneOf os = [] := by
        rw [goneOf_cons] at h
        exact (List.append_eq_nil_iff.mp h).2
      rw [← hg fun i _ e l => absurd (e ▸ l) hno] at hos
      obtain ⟨c1, c2, c3, c4⟩ := a1 hos
      obtain ⟨d1, d2, d3, d4⟩ := b2 fun e => hno e.1
      exact ⟨c1.trans d1, c2.trans d2, c3.trans d3, c4.trans d4⟩
    · have hk : ∀ i ∈ os.map Order.station, o.station = i → (s.station i).state = .leaving →
          1 < (s.station i).inFlight := by
        intro i hi e l
        have := hf i ((mem_goneOf ..).mpr ⟨by simp [e], l⟩)
        rw [List.countP_cons, if_pos (by simp [e])] at this
        have : 0 < os.countP fun o => o.station == i := by
          rw [List.countP_pos_iff]
          obtain ⟨p, hp, rfl⟩ := List.mem_map.mp hi
          exact ⟨p, hp, by simp⟩
        omega
      have hgo := hg hk
      have hcnt : ∀ i ∈ t.goneOf os,
          (t.station i).inFlight = os.countP fun o => o.station == i := by
        intro i hi
        rw [hgo] at hi
        obtain ⟨hm, hl⟩ := (mem_goneOf ..).mp hi
        have := hf i ((mem_goneOf ..).mpr ⟨by simp at hm ⊢; tauto, hl⟩)
        rw [hany, if_neg]
        · by_cases e : o.station = i
          · simp [e, this]
          · have hb : (o.station == i) = false := by simpa using e
            simp [e, this, hb]
        · rintro ⟨x, y, z⟩
          have := hk i hm x y
          omega
      by_cases hlast : o.station ∉ os.map Order.station ∧ (s.station o.station).state = .leaving
      · have h1 : (s.station o.station).inFlight ≤ 1 := by
          have := hf o.station ((mem_goneOf ..).mpr ⟨by simp, hlast.2⟩)
          rw [this, List.countP_cons]
          have : os.countP (fun p => p.station == o.station) = 0 := by
            rw [List.countP_eq_zero]
            intro p hp e
            exact hlast.1 (List.mem_map.mpr ⟨p, hp, by simpa using e⟩)
          simp [this]
        obtain ⟨d1, d2, d3⟩ := b1 ⟨hlast.2, h1⟩
        rw [goneOf_cons, if_pos hlast]
        by_cases hos : s.goneOf os = []
        · obtain ⟨c1, c2, c3, c4⟩ := a1 (hgo.trans hos)
          rw [hos, c1, c2, c4, d1, d2, d3]
          exact ⟨rfl, rfl, rfl⟩
        · obtain ⟨c1, c2, c3⟩ := a2 (fun e => hos (hgo.symm.trans e)) hcnt
          have hfr : t.radioFree = 0 ∨ t.ord.cancelPending = false := by
            rw [d3]
            by_cases hp : s.ord.cancelPending = true
            · by_cases hz : s.radioFree = 0
              · left
                unfold State.radioFree Config.radioOutbound at hz ⊢
                rw [d2]
                simp [State.radioLine]
                omega
              · right; simp [hz]
            · right; simp [hp]
          have hlen : s.rli.outbound.length ≤ s.radioLine.length := by simp [State.radioLine]
          have hm : max t.rli.outbound.length 8 = max s.rli.outbound.length 8 := by
            rw [d2, List.length_take]
            simp only [List.length_append, List.length_singleton]
            omega
          refine ⟨by rw [c1, d1, hgo]; simp, ?_, ?_⟩
          · rw [c2, hm, d1, hgo, d2]
            simp
          · rw [c3, d3]
            rcases hfr with hz | hz
            · simp [hz]
            · rw [d3] at hz
              rw [hz]
              rfl
      · have h1 : ¬ ((s.station o.station).state = .leaving ∧ (s.station o.station).inFlight ≤ 1) := by
          rintro ⟨x, y⟩
          by_cases hm : o.station ∈ os.map Order.station
          · have := hk _ hm rfl x
            omega
          · exact hlast ⟨hm, x⟩
        obtain ⟨d1, d2, d3, d4⟩ := b2 h1
        rw [goneOf_cons, if_neg hlast, List.nil_append] at h ⊢
        obtain ⟨c1, c2, c3⟩ := a2 (fun e => h (hgo.symm.trans e)) hcnt
        have hfr : t.radioFree = s.radioFree := by simp [State.radioFree, d2]
        rw [c1, c2, c3, hgo, d1, d2, d4, hfr]
        exact ⟨rfl, rfl, rfl⟩

/-- The CANCEL_ALL that ends a cancellation takes a free slot, or waits behind what has one (R137, R183). -/
theorem requestCancelAll_line (s : State) :
    s.requestCancelAll.stt = s.stt
      ∧ s.requestCancelAll.rli = { s.rli with
          outbound := s.rli.outbound ++ (if s.radioFree = 0 then [] else [.cancelAll]) }
      ∧ s.requestCancelAll.ord = { s.ord with cancelPending := decide (s.radioFree = 0) } := by
  unfold State.requestCancelAll State.giveCancel State.radioFree
  simp only [updOrd_ord, updOrd_rli, Bool.true_and]
  by_cases h : 0 < Config.radioOutbound - s.rli.outbound.length
  · have hn : ¬ Config.radioOutbound - s.rli.outbound.length = 0 := by omega
    simp [h, hn]
  · have hn : Config.radioOutbound - s.rli.outbound.length = 0 := by omega
    simp [hn]

/-! ## What stands in the radio line stays there -/

/-- One UNBIND for a LEAVING station whose orders are all cancelled, and whatever stood in line before (R8, R137). -/
theorem cancelFold_unbind (os : List Order) (s : State) :
    (∀ x ∈ s.radioLine, x ∈ (os.foldl State.cancelOrder s).radioLine)
    ∧ ∀ i, (s.station i).state = .leaving → 0 < os.countP (fun o => o.station == i) →
        (s.station i).inFlight ≤ os.countP (fun o => o.station == i) →
        RadioRecord.unbind i ∈ (os.foldl State.cancelOrder s).radioLine := by
  induction os generalizing s with
  | nil => simp
  | cons o os ih =>
    simp only [List.foldl_cons]
    obtain ⟨a1, a2⟩ := ih (s.cancelOrder o)
    obtain ⟨b1, b2⟩ := cancelOrder_radio s o
    have hany := cancelOrder_any s o
    generalize s.cancelOrder o = t at *
    have hm : ∀ x ∈ s.radioLine, x ∈ t.radioLine := by
      intro x hx
      by_cases h : (s.station o.station).state = .leaving ∧ (s.station o.station).inFlight ≤ 1
      · rw [(b1 h).1]; simp [hx]
      · rw [(b2 h).1]; exact hx
    refine ⟨fun x hx => a1 x (hm x hx), fun i hl hp hc => ?_⟩
    simp only [List.countP_cons, beq_iff_eq] at hp hc
    by_cases e : o.station = i
    · by_cases h1 : (s.station i).inFlight ≤ 1
      · have := (b1 (by rw [e]; exact ⟨hl, h1⟩)).1
        exact a1 _ (by rw [this, e]; simp)
      · have ht : t.station i = { s.station i with inFlight := (s.station i).inFlight - 1 } := by
          rw [hany, if_neg (fun h => h1 h.2.2)]
          simp [e]
        simp only [e, if_true] at hc
        exact a2 i (by rw [ht]; exact hl) (by omega) (by rw [ht]; simp only; omega)
    · have ht : t.station i = s.station i := by
        rw [hany, if_neg (fun h => e h.1)]
        simp [e]
      simp only [e, if_false, Nat.add_zero] at hp hc
      exact a2 i (by rw [ht]; exact hl) hp (by rw [ht]; exact hc)

/-- A requested CANCEL_ALL takes no record out of the line (R137, R183). -/
theorem requestCancelAll_mem (s : State) (x : RadioRecord) (h : x ∈ s.radioLine) :
    x ∈ s.requestCancelAll.radioLine := by
  obtain ⟨h1, h2, h3⟩ := requestCancelAll_line s
  unfold State.radioLine at *
  rw [h1, h2, h3]
  by_cases hz : s.radioFree = 0
  · cases hc : s.ord.cancelPending <;> simp [hz, hc] at * <;> tauto
  · cases hc : s.ord.cancelPending <;> simp [hz, hc] at * <;> tauto

/-- An empty lane takes no record out of the line (R3, R183). -/
theorem laneEmpty_mem (s : State) (i : Nat) (l : Lane) (x : RadioRecord) (h : x ∈ s.radioLine) :
    x ∈ (s.laneEmpty i l).radioLine := by
  by_cases hw : i ≠ 0 ∧ (s.station i).state = .dozing ∧ (s.lanesOf i).allEmpty = true ∧ i ∈ s.sel.poll
  · rw [laneEmpty_withdraws s i l hw.1 hw.2.1 hw.2.2.1 hw.2.2.2]
    unfold State.formPollEmpty
    split
    · exact h
    · rw [formNote_radioLine]
      have : (s.removePoll i).radioLine = s.radioLine := rfl
      simp [this, h]
  · have := laneEmpty_radio s i l (by
      by_contra hc; push Not at hc; simp at hc; exact hw ⟨hc.1, hc.2.1, by simpa using hc.2.2.1, hc.2.2.2⟩)
    unfold State.radioLine at *
    rw [this.1, this.2.1, this.2.2]
    exact h

/-- A flush takes no record out of the line (R46, R183). -/
theorem flushAll_mem (s : State) (x : RadioRecord) (h : x ∈ s.radioLine) : x ∈ s.flushAll.radioLine := by
  have hr : ∀ (ls : List Lane) (s : State) (i : Nat), x ∈ s.radioLine →
      x ∈ (s.returnLanes i .flushed ls).radioLine := by
    intro ls
    induction ls with
    | nil => exact fun _ _ h => h
    | cons l ls ih =>
      intro s i h
      refine ih (s.returnLane i .flushed l) i ?_
      unfold State.returnLane
      split
      · exact h
      · exact laneEmpty_mem _ _ _ _ h
  rw [flushAll_eq]
  generalize List.range 512 = is
  induction is generalizing s with
  | nil => exact h
  | cons i is ih => exact ih _ (hr _ _ _ h)

end Sys2Proof.Machine
end

