-- ==== Sys2Proof/Laws/Moves.lean ====
section
/-!
SUPPORT. The whole of SEL, the expiry list and the frame counters behind each lane change: a lane that fills or empties
(R3), a take (R31), a requeue (R32), a return (R38, R40, R46).
-/

namespace Sys2Proof.Machine

/-- SEL behind a lane that has become empty (R3, R98, R99, R100, R101). -/
theorem laneEmpty_sel (s : State) (i : Nat) (l : Lane) : (s.laneEmpty i l).sel = { s.sel with
    active := if i ≠ 0 ∧ (s.station i).state = .backlogged ∧ (s.lanesOf i).allEmpty = true
      then s.sel.active.erase i else s.sel.active
    prompt := if i ≠ 0 ∧ (s.station i).state = .backlogged ∧ l = .prompt then s.sel.prompt.erase i else s.sel.prompt
    poll := if i ≠ 0 ∧ (s.station i).state = .dozing ∧ (s.lanesOf i).allEmpty = true
      then s.sel.poll.erase i else s.sel.poll
    groupDue := if i = 0 then false else s.sel.groupDue } := by
  rw [← laneEmpty_active s i l, ← laneEmpty_prompt s i l, ← laneEmpty_poll s i l, ← laneEmpty_groupDue s i l]
  have h := laneEmpty_keeps s i l
  generalize (s.laneEmpty i l) = t at *
  obtain ⟨h1, h2, h3, h4, h5, h6, h7, h8, h9, h10, h11, h12, h13, h14, h15, h16, _⟩ := h
  show t.sel = Sel.mk _ _ _ _ _ _ _ _ _
  simp only [← h12, ← h13, ← h14, ← h15, ← h16]

/-- SEL behind a lane that has received an entry (R3, R97, R99, R101). -/
theorem laneNonempty_sel (s : State) (i : Nat) (l : Lane) : (s.laneNonempty i l).sel = { s.sel with
    active := if i ≠ 0 ∧ (s.station i).state = .idle ∧ i ∉ s.sel.active then s.sel.active ++ [i] else s.sel.active
    prompt := if i ≠ 0 ∧ l = .prompt ∧ i ∉ s.sel.prompt
        ∧ ((s.station i).state = .idle ∨ (s.station i).state = .backlogged)
      then s.sel.prompt ++ [i] else s.sel.prompt
    groupDue := if i = 0 ∧ s.dozingCount = 0 then true else s.sel.groupDue } := by
  rw [← laneNonempty_active s i l, ← laneNonempty_prompt s i l, ← laneNonempty_groupDue s i l]
  have h := laneNonempty_keeps s i l
  generalize (s.laneNonempty i l) = t at *
  obtain ⟨h1, h2, h3, h4, h5, h6, h7, h8, h9, h10, h11, h12, h13, _⟩ := h
  show t.sel = Sel.mk _ _ _ _ _ _ _ _ _
  simp only [← h8, ← h9, ← h10, ← h11, ← h12, ← h13]

/-! ## Takes -/

/-- SEL behind the take of the head of a lane (R31, R3). -/
theorem takeFrames_sel (s : State) (i : Nat) (l : Lane) (taken left : List Frame) (hl : s.lane i l = taken ++ left)
    (ht : taken ≠ []) (hp : i ∉ s.sel.poll) : (s.takeFrames i l taken.length).sel = { s.sel with
      active := if i ≠ 0 ∧ (s.station i).state = .backlogged
          ∧ ((s.takeFrames i l taken.length).lanesOf i).allEmpty = true
        then s.sel.active.erase i else s.sel.active
      prompt := if i ≠ 0 ∧ (s.station i).state = .backlogged ∧ l = .prompt ∧ left = []
        then s.sel.prompt.erase i else s.sel.prompt
      groupDue := if i = 0 ∧ left = [] then false else s.sel.groupDue } := by
  have hlane := (takeFrames_spec s i l taken left hl ht hp).1 i l
  rw [if_pos rfl] at hlane
  have hall : ((s.takeFrames i l taken.length).lanesOf i).allEmpty = true → left = [] := fun h => by
    rw [← hlane]; exact (Lanes.allEmpty_iff _).mp h l
  revert hall
  unfold State.takeFrames
  have hd : (s.lane i l).drop taken.length = left := by rw [hl]; simp
  dsimp only
  simp only [hd]
  by_cases h : left = []
  · rw [if_pos (by simpa using h)]
    intro _
    rw [laneEmpty_sel]
    simp only [laneEmpty_keeps, updFpl_sel, setLane_sel, updFpl_station, setLane_station, h, and_true,
      List.erase_of_not_mem hp, ite_self]
  · rw [if_neg (by simpa using h)]
    intro hall
    have hn : ¬ ((((s.setLane i l left).updFpl fun p =>
        { p with expiry := leaveExpiry p.expiry (List.take taken.length (s.lane i l)) }).lanesOf i).allEmpty = true) :=
      fun e => h (hall e)
    simp [hn, h]

/-! ## Requeues -/

/-- SEL behind a requeue (R32, R3). -/
theorem requeueFrames_sel (s : State) (i : Nat) (l : Lane) (fs : List Frame) :
    (s.requeueFrames i l fs).sel = { s.sel with
      active := if i ≠ 0 ∧ (s.station i).state = .idle ∧ fs ≠ [] ∧ s.lane i l = [] ∧ i ∉ s.sel.active
        then s.sel.active ++ [i] else s.sel.active
      prompt := if i ≠ 0 ∧ l = .prompt ∧ fs ≠ [] ∧ s.lane i l = [] ∧ i ∉ s.sel.prompt
          ∧ ((s.station i).state = .idle ∨ (s.station i).state = .backlogged)
        then s.sel.prompt ++ [i] else s.sel.prompt
      groupDue := if i = 0 ∧ fs ≠ [] ∧ s.lane i l = [] ∧ s.dozingCount = 0 then true else s.sel.groupDue } := by
  unfold State.requeueFrames
  by_cases hf : fs = []
  · simp [hf]
  · rw [if_neg (by simpa using hf)]
    dsimp only
    by_cases hq : s.lane i l = []
    · rw [if_pos (by simpa using hq), laneNonempty_sel]
      have hd : ((s.setLane i l (fs.map Frame.requeued ++ s.lane i l)).updFpl fun p =>
          { p with
            expiry := (fs.map Frame.requeued).foldl joinExpiry p.expiry
            framesRequeued := satAdd p.framesRequeued fs.length }).dozingCount = s.dozingCount := rfl
      rw [hd]
      simp only [updFpl_sel, setLane_sel, updFpl_station, setLane_station, hf, hq, ne_eq, not_false_eq_true, true_and]
    · rw [if_neg (by simpa using hq)]
      simp [hq]

/-- FPL behind a requeue (R32, R44). -/
theorem requeueFrames_fpl (s : State) (i : Nat) (l : Lane) (fs : List Frame) :
    (s.requeueFrames i l fs).fpl = { s.fpl with
      lanes := (s.requeueFrames i l fs).fpl.lanes
      expiry := (fs.map Frame.requeued).foldl joinExpiry s.fpl.expiry
      framesRequeued := if fs = [] then s.fpl.framesRequeued
        else min (s.fpl.framesRequeued + fs.length) 4294967295 } := by
  unfold State.requeueFrames
  by_cases hf : fs = []
  · simp [hf]
  · rw [if_neg (by simpa using hf)]
    dsimp only
    split <;> simp [satAdd, State.setLane]

/-! ## Returns -/

/-- The expiry list behind a returned lane (R38). -/
theorem returnLane_expiry (s : State) (i : Nat) (x : FrameResult) (l : Lane) :
    (s.returnLane i x l).fpl.expiry = leaveExpiry s.fpl.expiry (s.lane i l) := by
  unfold State.returnLane
  split
  · rename_i h; simp [h, leaveExpiry]
  · rename_i h; simp

theorem leaveExpiry_append (q : List ExpiryRef) (a b : List Frame) :
    leaveExpiry (leaveExpiry q a) b = leaveExpiry q (a ++ b) := by
  simp only [leaveExpiry, List.filter_filter, List.any_append, Bool.not_or]
  congr 1; funext r; exact Bool.and_comm _ _

/-- The expiry list behind returned lanes (R38, R40). -/
theorem returnLanes_expiry (s : State) (i : Nat) (x : FrameResult) (ls : List Lane) (hn : ls.Nodup) :
    (s.returnLanes i x ls).fpl.expiry = leaveExpiry s.fpl.expiry (ls.flatMap (s.lane i)) := by
  induction ls generalizing s with
  | nil => simp [State.returnLanes, leaveExpiry]
  | cons l ls ih =>
    have : s.returnLanes i x (l :: ls) = (s.returnLane i x l).returnLanes i x ls := rfl
    obtain ⟨h1, h2⟩ := List.nodup_cons.mp hn
    rw [this, ih _ h2, returnLane_expiry, leaveExpiry_append]
    have : ls.flatMap ((s.returnLane i x l).lane i) = ls.flatMap (s.lane i) := by
      apply List.flatMap_congr
      intro k hk
      rw [returnLane_lane, if_neg]
      rintro e
      simp only [Prod.mk.injEq, true_and] at e
      exact h1 (e ▸ hk)
    rw [this]
    simp

/-- The prompt list behind returned lanes: only the PROMPT lane's return takes a station off it (R3, R99). -/
theorem returnLane_prompt (s : State) (i : Nat) (x : FrameResult) (l : Lane) :
    (s.returnLane i x l).sel.prompt = if i ≠ 0 ∧ (s.station i).state = .backlogged ∧ l = .prompt ∧ s.lane i l ≠ []
      then s.sel.prompt.erase i else s.sel.prompt := by
  unfold State.returnLane
  split
  · rename_i h; simp [h]
  · rename_i h
    have hne : s.lane i l ≠ [] := h
    rw [laneEmpty_prompt]
    simp [hne]

/-- Lanes other than PROMPT leave the prompt list alone. -/
theorem returnLanes_prompt_of_not_mem (s : State) (i : Nat) (x : FrameResult) (ls : List Lane) (h : Lane.prompt ∉ ls) :
    (s.returnLanes i x ls).sel.prompt = s.sel.prompt := by
  induction ls generalizing s with
  | nil => rfl
  | cons l ls ih =>
    have : s.returnLanes i x (l :: ls) = (s.returnLane i x l).returnLanes i x ls := rfl
    simp only [List.mem_cons, not_or] at h
    rw [this, ih _ h.2, returnLane_prompt, if_neg]
    rintro ⟨_, _, e, _⟩
    exact h.1 e.symm

/-- The group-due flag behind returned lanes: station 0's lanes clear it (R101). -/
theorem returnLanes_groupDue (s : State) (i : Nat) (x : FrameResult) (ls : List Lane) :
    (s.returnLanes i x ls).sel.groupDue = if i = 0 ∧ s.holdsAny i ls = true then false else s.sel.groupDue := by
  induction ls generalizing s with
  | nil => simp [State.returnLanes, State.holdsAny]
  | cons l ls ih =>
    have : s.returnLanes i x (l :: ls) = (s.returnLane i x l).returnLanes i x ls := rfl
    rw [this, ih]
    have hl : (s.returnLane i x l).sel.groupDue = if i = 0 ∧ s.lane i l ≠ [] then false else s.sel.groupDue := by
      unfold State.returnLane
      split
      · rename_i h; simp [h]
      · rename_i h
        have hne : s.lane i l ≠ [] := h
        rw [laneEmpty_groupDue]; simp [hne]
    by_cases h0 : i = 0
    · by_cases hne : s.lane i l = []
      · have : s.returnLane i x l = s := by unfold State.returnLane; simp [hne]
        rw [this]; simp [State.holdsAny, hne]
      · rw [hl]; simp [h0, h0 ▸ hne, State.holdsAny]
    · rw [hl]; simp [h0]

/-- The budgets, allotments and the choice stay behind returned lanes. -/
theorem returnLanes_sel_rest (s : State) (i : Nat) (x : FrameResult) (ls : List Lane) :
    (s.returnLanes i x ls).sel = { s.sel with
      active := (s.returnLanes i x ls).sel.active, prompt := (s.returnLanes i x ls).sel.prompt
      poll := (s.returnLanes i x ls).sel.poll, groupDue := (s.returnLanes i x ls).sel.groupDue } := by
  have h : (s.returnLanes i x ls).sel.groupBudget = s.sel.groupBudget
      ∧ (s.returnLanes i x ls).sel.promptBudget = s.sel.promptBudget
      ∧ (s.returnLanes i x ls).sel.groupAllot = s.sel.groupAllot
      ∧ (s.returnLanes i x ls).sel.promptAllot = s.sel.promptAllot
      ∧ (s.returnLanes i x ls).sel.choice = s.sel.choice := by simp
  obtain ⟨h1, h2, h3, h4, h5⟩ := h
  show _ = Sel.mk _ _ _ _ _ _ _ _ _
  simp only [← h1, ← h2, ← h3, ← h4, ← h5]

/-- A DOZING station that keeps a frame, or that is not on the poll list or has its POLL_EMPTY in line already, forms no
note (R3, R6). -/
theorem laneEmpty_silent (s : State) (i : Nat) (l : Lane)
    (h : (s.lanesOf i).allEmpty = false ∨ i ∉ s.sel.poll ∨ LinkNote.pollEmpty i ∈ s.stt.linkNotes) :
    (s.laneEmpty i l).stt.linkNotes = s.stt.linkNotes ∧ (s.laneEmpty i l).rli = s.rli
      ∧ (s.laneEmpty i l).ord = s.ord := by
  rcases h with h | h | h
  · exact laneEmpty_radio s i l (by simp [h])
  · exact laneEmpty_radio s i l (by simp [h])
  · unfold State.laneEmpty
    by_cases h0 : i = 0
    · simp [h0]
    · rw [if_neg h0]
      cases hst : (s.station i).state <;> simp
      · split <;> split <;> simp
      · split
        · simp [State.formPollEmpty, h]
        · simp

/-- Returned lanes form no note where the station keeps a frame, is not on the poll list, or has its POLL_EMPTY in line
already (R3, R6, R38). -/
theorem returnLanes_silent (ls : List Lane) (s : State) (i : Nat) (x : FrameResult)
    (h : ((s.returnLanes i x ls).lanesOf i).allEmpty = false ∨ i ∉ s.sel.poll
      ∨ LinkNote.pollEmpty i ∈ s.stt.linkNotes) :
    (s.returnLanes i x ls).stt.linkNotes = s.stt.linkNotes ∧ (s.returnLanes i x ls).rli = s.rli
      ∧ (s.returnLanes i x ls).ord = s.ord := by
  induction ls generalizing s with
  | nil => exact ⟨rfl, rfl, rfl⟩
  | cons l ls ih =>
    have e : s.returnLanes i x (l :: ls) = (s.returnLane i x l).returnLanes i x ls := rfl
    have hall : ((s.returnLanes i x (l :: ls)).lanesOf i).allEmpty = false →
        ((s.lanesOf i).set l []).allEmpty = false := by
      intro a
      rw [e] at a
      by_contra c
      exact absurd (allEmpty_returnLanes s i x l ls (by simpa using c)) (by simp [a])
    have h1 : (s.returnLane i x l).stt.linkNotes = s.stt.linkNotes ∧ (s.returnLane i x l).rli = s.rli
        ∧ (s.returnLane i x l).ord = s.ord := by
      have hla := returnLane_lanesOf s i i x l
      unfold State.returnLane at *
      split at hla
      · exact ⟨rfl, rfl, rfl⟩
      · have := laneEmpty_silent (((s.setLane i l []).updFpl fun p =>
            { p with expiry := leaveExpiry p.expiry (s.lane i l) }).returnFrames (withResult (s.lane i l) x)) i l (by
          rcases h with a | a | a
          · left
            simp only [laneEmpty_keeps] at hla
            rw [hla, if_pos trivial]
            exact hall a
          · exact Or.inr (Or.inl a)
          · exact Or.inr (Or.inr a))
        exact this
    obtain ⟨a1, a2, a3⟩ := ih (s.returnLane i x l) (by
      rcases h with a | a | a
      · exact Or.inl (e ▸ a)
      · refine Or.inr (Or.inl ?_)
        rw [returnLane_poll]
        split
        · exact fun c => a (List.mem_of_mem_erase c)
        · exact a
      · exact Or.inr (Or.inr (h1.1 ▸ a)))
    rw [e, a1, a2, a3]
    exact h1

/-- Every expired reference of a flushed part is gone (R46). -/
theorem flushList_expiry (is : List Nat) (s : State) (hn : is.Nodup) :
    (flushList is s).fpl.expiry = leaveExpiry s.fpl.expiry (is.flatMap fun i => (s.lanesOf i).inOrder) := by
  induction is generalizing s with
  | nil => simp [flushList, leaveExpiry]
  | cons i is ih =>
    obtain ⟨h1, h2⟩ := List.nodup_cons.mp hn
    have : flushList (i :: is) s = flushList is (s.returnLanes i .flushed allLanes) := rfl
    rw [this, ih _ h2, returnLanes_expiry _ _ _ _ (by decide), leaveExpiry_append]
    have e : is.flatMap (fun j => ((s.returnLanes i .flushed allLanes).lanesOf j).inOrder)
        = is.flatMap fun j => (s.lanesOf j).inOrder := by
      apply List.flatMap_congr
      intro j hj
      have hji : j ≠ i := fun e => h1 (e ▸ hj)
      congr 1
      apply Lanes.ext_get
      intro k
      have := returnLanes_lane s i j .flushed allLanes k
      rw [if_neg (by simp [hji])] at this
      exact this
    rw [e]
    simp [allLanes, Lanes.inOrder, State.lane, Lanes.get]

end Sys2Proof.Machine
end

