-- ==== Sys2Proof/Laws/Conclusions.lean ====
section
/-!
SUPPORT. What a concluded order leaves as a whole: the accounts (R63 to R65), SEL and FPL behind the undelivered frames
(R126, R131), the UNBIND of a LEAVING station (R8), for an accepted outcome (R125) and a timeout (R131).
-/

namespace Sys2Proof.Machine

/-! ## Parts -/

/-- The accounts outside the station records behind a correction (R64, R65, R78, R101). -/
theorem applyCorrection_accounts (s : State) (o : Order) (d : Int) :
    AccountsCorrected s (s.applyCorrection o d) o d
      ∧ (s.applyCorrection o d).sel = { s.sel with
          promptBudget := (s.applyCorrection o d).sel.promptBudget
          groupBudget := (s.applyCorrection o d).sel.groupBudget
          groupDue := if o.kind = .group ∧ o.round = s.rck.round ∧ (s.applyCorrection o d).sel.groupBudget ≤ 0
            then false else s.sel.groupDue } := by
  obtain ⟨h1, h2⟩ := applyCorrection_cohort s o d
  obtain ⟨h3, h4, h5⟩ := applyCorrection_sel s o d
  refine ⟨⟨h1, h2, h3, h4, h5⟩, ?_⟩
  clear h1 h2 h3 h4 h5
  unfold State.applyCorrection
  have e1 : ((s.correctStation o.station d).correctCohort o d).sel = s.sel := by simp
  have e2 : ((s.correctStation o.station d).correctCohort o d).rck = s.rck := by simp
  generalize (s.correctStation o.station d).correctCohort o d = u at *
  unfold State.correctSelector
  cases hk : o.kind <;> dsimp only
  · rw [e2]
    by_cases h : o.round = s.rck.round
    · rw [if_pos h]
      simp only [State.setGroupBudget, updSel_sel, e1, h, true_and]
      congr 1
      by_cases hb : correctBudget s.sel.groupBudget d s.sel.groupAllot ≤ 0
      · simp [hb, not_lt.mpr hb]
      · simp [hb, not_le.mp hb]
    · simp [h, e1]
  · simp [e1]
  · rw [e2]
    split <;> simp [e1]
  · simp [e1]
  · simp [e1]

/-- The undelivered frames that go back to their lane (R126, R131). -/
def requeuedOf (s : State) (fs : List Frame) : List Frame :=
  (fs.filter fun f => !deadlinePassed s.rck.deviceTime f.deadline
    && decide (f.requeues < s.mod.config.requeueMax)).map Frame.requeued

/-- SEL, FPL and the station behind the undelivered frames of a station that is not LEAVING (R3, R32, R126, R131). -/
theorem concludeFrames_moves (s : State) (o : Order) (x : FrameResult) (fs back : List Frame) (hi : o.station < 512)
    (hl : (s.station o.station).state ≠ .leaving) (hb : back = requeuedOf s fs) :
    (s.concludeFrames o x fs).sel = { s.sel with
        active := if o.station ≠ 0 ∧ (s.station o.station).state = .idle ∧ back ≠ [] ∧ s.lane o.station o.lane = []
            ∧ o.station ∉ s.sel.active
          then s.sel.active ++ [o.station] else s.sel.active
        prompt := if o.station ≠ 0 ∧ o.lane = .prompt ∧ back ≠ [] ∧ s.lane o.station o.lane = []
            ∧ o.station ∉ s.sel.prompt
            ∧ ((s.station o.station).state = .idle ∨ (s.station o.station).state = .backlogged)
          then s.sel.prompt ++ [o.station] else s.sel.prompt
        groupDue := if o.station = 0 ∧ back ≠ [] ∧ s.lane o.station o.lane = [] ∧ s.dozingCount = 0 then true
          else s.sel.groupDue }
    ∧ (s.concludeFrames o x fs).fpl = { s.fpl with
        lanes := (s.concludeFrames o x fs).fpl.lanes
        expiry := back.foldl joinExpiry s.fpl.expiry
        framesRequeued := if back = [] then s.fpl.framesRequeued
          else min (s.fpl.framesRequeued + back.length) 4294967295
        returnList := s.fpl.returnList
          ++ (fs.filter fun f => deadlinePassed s.rck.deviceTime f.deadline
              || decide (s.mod.config.requeueMax ≤ f.requeues)).map
            (fun f => ⟨f, if deadlinePassed s.rck.deviceTime f.deadline = true then .expired else x⟩) }
    ∧ (∀ j, (s.concludeFrames o x fs).station j = if j = o.station ∧ j ≠ 0 ∧ (s.station j).state = .idle
          ∧ back ≠ [] ∧ s.lane j o.lane = []
        then (s.station j).resumed .backlogged s.rck.clocksRunning else s.station j)
    ∧ (∀ j l, (s.concludeFrames o x fs).lane j l = if (j, l) = (o.station, o.lane)
        then back ++ s.lane o.station o.lane else s.lane j l) := by
  have hl' : ((s.station o.station).state == StationState.leaving) = false := by simpa using hl
  have h1 := concludeFrames_lane s o (x := x) (fs := fs) (hi := hi)
  have h2 := concludeFrames_returnList s o x fs
  simp only [hl', frameFate_filter, frameFate_filterMap] at h1 h2
  unfold requeuedOf at hb
  rw [← hb] at h1
  refine ⟨?_, ?_, ?_, fun j l => h1 j l⟩
  · unfold State.concludeFrames
    dsimp only
    simp only [hl', frameFate_filter, returnFrames_keeps]
    rw [requeueFrames_sel, hb]
    simp only [ne_eq, List.map_eq_nil_iff]
  · have h3 := requeueFrames_fpl s o.station o.lane (fs.filter fun f =>
      !deadlinePassed s.rck.deviceTime f.deadline && decide (f.requeues < s.mod.config.requeueMax))
    have : (s.concludeFrames o x fs).fpl = { (s.requeueFrames o.station o.lane (fs.filter fun f =>
        !deadlinePassed s.rck.deviceTime f.deadline && decide (f.requeues < s.mod.config.requeueMax))).fpl with
        returnList := (s.concludeFrames o x fs).fpl.returnList } := by
      unfold State.concludeFrames
      dsimp only
      simp only [hl', frameFate_filter]
      rfl
    rw [this, h2, h3, hb]
    simp only [List.map_eq_nil_iff, List.length_map]
  · intro j
    unfold State.concludeFrames
    dsimp only
    simp only [hl', frameFate_filter, returnFrames_keeps]
    rw [requeueFrames_station _ _ _ _ _ hi, hb]
    by_cases hj : j = o.station
    · subst hj; simp
    · simp [hj]

/-- The radio line behind a concluded order (R8, R17, R183). -/
theorem lowerInFlight_line (s : State) (i : Nat) :
    ((s.station i).state = .leaving ∧ (s.station i).inFlight ≤ 1 →
      (s.lowerInFlight i).radioLine = s.radioLine ++ [.unbind i] ∧ (s.lowerInFlight i).radioServed
        ∧ (s.lowerInFlight i).ord = { s.ord with cancelPending := (s.lowerInFlight i).ord.cancelPending })
    ∧ (¬ ((s.station i).state = .leaving ∧ (s.station i).inFlight ≤ 1) →
      (s.lowerInFlight i).stt.linkNotes = s.stt.linkNotes ∧ (s.lowerInFlight i).rli = s.rli
        ∧ (s.lowerInFlight i).ord = s.ord) := by
  unfold State.lowerInFlight
  dsimp only
  have hi : (s.station i).state = .leaving → i < 512 := fun h => by
    by_contra c
    rw [station_of_le _ (by omega)] at h
    simp [Station.cleared] at h
  refine ⟨fun ⟨a, b⟩ => ?_, fun h => ?_⟩
  · rw [if_pos (by rw [updStation_station_self _ _ (hi a)]; exact ⟨a, by simp; omega⟩)]
    obtain ⟨g1, g2, g3⟩ := formNote_line
      ((s.updStation i fun x => { x with inFlight := x.inFlight - 1 }).clearStation i) (.unbind i)
    refine ⟨g1, formNote_radioServed _ _, ?_⟩
    rw [g3]
    rfl
  · rw [if_neg]
    · exact ⟨rfl, rfl, rfl⟩
    · rintro ⟨a, b⟩
      rw [updStation_station] at a b
      by_cases c : i = i ∧ i < Config.stationCount
      · rw [if_pos c] at a b
        exact h ⟨a, by simp at b; omega⟩
      · rw [if_neg c] at a
        exact c ⟨rfl, hi a⟩

/-- The accounts corrected at one state are so at any that agrees with it on them. -/
theorem AccountsCorrected.congr {s u v : State} {o : Order} {d : Int} (h : AccountsCorrected s u o d)
    (h1 : ∀ c, v.cohort c = u.cohort c) (h2 : v.sel.promptBudget = u.sel.promptBudget)
    (h3 : v.sel.groupBudget = u.sel.groupBudget) (h4 : v.rck = u.rck) : AccountsCorrected s v o d :=
  ⟨fun c a b e f => (h1 c).trans (h.cohort c a b e f), fun c a => (h1 c).trans (h.cohorts c a),
    h2.trans h.promptBudget, h3.trans h.groupBudget, h4.trans h.clocks⟩

/-! ## Accepted outcomes -/

/-- What an accepted outcome leaves whatever the station's state (R125, R127). -/
theorem acceptOutcome_common (s : State) (x : Outcome) (o : Order) (pre post : List Order) (d : Int)
    (ho : s.ord.outstanding = pre ++ o :: post) (hox : o.id = x.id) (hid : ∀ p ∈ pre ++ post, p.id ≠ x.id)
    (hi : o.station < 512) (hd : d = (o.est : Int) - x.airtime) :
    { (s.acceptOutcome o x).ord with cancelPending := s.ord.cancelPending } = s.ord.concluded (pre ++ post) o x
      ∧ (∀ j, j ≠ o.station → (s.acceptOutcome o x).station j = s.station j)
      ∧ (s.acceptOutcome o x).mod = s.mod
      ∧ AccountsCorrected s (s.acceptOutcome o x) o d
      ∧ { (s.acceptOutcome o x).rli with outbound := s.rli.outbound } = s.rli := by
  have hk := acceptOutcome_keeps s o x
  have hf : s.ord.outstanding.filter (fun y => y.id != o.id) = pre ++ post := by
    rw [ho]; exact filter_order_id (by rw [hox]; exact hid)
  obtain ⟨ha, _⟩ := applyCorrection_accounts s o d
  unfold State.acceptOutcome
  dsimp only
  rw [← hd]
  generalize splitFrames o x = q
  refine ⟨?_, ?_, ?_, ?_, ?_⟩
  · simp only [State.countOrd, State.removeOrder, updOrd_ord, lowerInFlight_keeps, countFrames_keeps,
      concludeFrames_keeps, returnFrames_keeps, updateRate_keeps, applyCorrection_keeps, hf]
    rfl
  · intro j hj
    simp only [State.countOrd, State.removeOrder, updOrd_station]
    rw [lowerInFlight_any, if_neg (fun e => hj e.1.symm), countFrames_station _ _ _ _ _ hi,
      concludeFrames_station_of_ne _ _ _ _ _ hi hj]
    simp only [hj, Ne.symm hj, if_false, returnFrames_keeps]
    rw [updateRate_station _ _ _ _ hi, applyCorrection_station, correctStation_station _ _ _ _ hi]
    simp [hj]
  · simp [State.countOrd, State.removeOrder]
  · apply ha.congr <;> simp [State.countOrd, State.removeOrder]
  · simp only [State.countOrd, State.removeOrder, updOrd_rli, lowerInFlight_keeps, countFrames_keeps,
      concludeFrames_keeps, returnFrames_keeps, updateRate_keeps, applyCorrection_keeps]

/-- The order's station behind its correction and its rate (R18, R51, R52, R63). -/
theorem corrected_station (s : State) (o : Order) (d : Int) (q : Nat) (hi : o.station < 512) :
    ((s.applyCorrection o d).updateRate o.station q).station o.station = { s.station o.station with
      balance := if o.station = 0 then (s.station o.station).balance
        else clampInt (-(s.mod.config.debtLimitUs : Int)) (s.station o.station).cap ((s.station o.station).balance + d)
      usedRound := min (((s.station o.station).usedRound : Int) - d).toNat 4294967295
      rate := if o.station = 0 ∨ q = 0 then (s.station o.station).rate
        else clampNat 2 2400 ((3 * (s.station o.station).rate + clampNat 2 2400 q + 2) / 4) } := by
  rw [updateRate_station _ _ _ _ hi, applyCorrection_station, correctStation_station _ _ _ _ hi]
  simp

/-- A change of a station that keeps its state keeps the count of DOZING stations (R12). -/
theorem dozingCount_modify (s : State) (i : Nat) (f : Station → Station) (h : ∀ x, (f x).state = x.state) :
    (s.updStation i f).dozingCount = s.dozingCount := by
  have hm : ∀ (l : List Station) (i : Nat), (l.modify i f).countP (fun x => x.state == .dozing)
      = l.countP fun x => x.state == .dozing := by
    intro l
    induction l with
    | nil => simp
    | cons a l ih =>
      intro i
      cases i with
      | zero => simp [h, List.countP_cons]
      | succ i => simp [ih, List.countP_cons]
  exact hm _ _

theorem dozingCount_corrected (s : State) (o : Order) (d : Int) (q : Nat) :
    ((s.applyCorrection o d).updateRate o.station q).dozingCount = s.dozingCount := by
  have h1 : ∀ t : State, (t.updateRate o.station q).dozingCount = t.dozingCount := by
    intro t
    unfold State.updateRate
    split
    · rfl
    · exact dozingCount_modify _ _ _ fun _ => rfl
  have h2 : (s.applyCorrection o d).stt = (s.correctStation o.station d).stt := by
    unfold State.applyCorrection State.correctSelector State.correctCohort
    repeat' split
    all_goals simp
  rw [h1]
  unfold State.dozingCount
  rw [h2]
  exact dozingCount_modify s o.station _ fun _ => rfl

/-- The frames an outcome marks as delivered, and the others (R125, R127, R194). -/
theorem splitFrames_eq (o : Order) (x : Outcome) : splitFrames o x =
    ((if x.frameCount = o.frames.length
      then (o.frames.zipIdx.filter fun p => x.deliveredMap.getLsbD p.2).map Prod.fst else []),
     (if x.frameCount = o.frames.length
      then (o.frames.zipIdx.filter fun p => !x.deliveredMap.getLsbD p.2).map Prod.fst else o.frames)) := by
  unfold splitFrames
  split <;> rfl

/-- An accepted outcome of a LEAVING station (R8, R128). -/
theorem acceptOutcome_gone (s : State) (x : Outcome) (o : Order) (d : Int) (marked undone : List Frame)
    (hl : (s.station o.station).state = .leaving) (hd : d = (o.est : Int) - x.airtime)
    (hq : splitFrames o x = (marked, undone)) :
    (s.acceptOutcome o x).fpl = { s.fpl with returnList := (s.fpl.returnList
        ++ marked.map (fun f => ⟨f, .delivered⟩) ++ undone.map (fun f => ⟨f, .failed⟩)) }
      ∧ ((s.station o.station).inFlight ≤ 1 →
          (s.acceptOutcome o x).station o.station = .cleared (s.station o.station).cohort
          ∧ (s.acceptOutcome o x).radioLine = s.radioLine ++ [.unbind o.station]
          ∧ (s.acceptOutcome o x).radioServed)
      ∧ (1 < (s.station o.station).inFlight →
          (s.acceptOutcome o x).station o.station
            = (s.station o.station).concluded s.mod.config o.station x d marked.length undone.length
          ∧ (s.acceptOutcome o x).stt.linkNotes = s.stt.linkNotes ∧ (s.acceptOutcome o x).rli = s.rli
          ∧ (s.acceptOutcome o x).ord.cancelPending = s.ord.cancelPending)
      ∧ (s.acceptOutcome o x).sel = (s.applyCorrection o d).sel := by
  have hi : o.station < 512 := by
    by_contra c
    rw [station_of_le _ (by omega)] at hl
    simp [Station.cleared] at hl
  have hs := corrected_station s o d x.finalRate hi
  have ha : ((s.applyCorrection o d).updateRate o.station x.finalRate).fpl = s.fpl
      ∧ ((s.applyCorrection o d).updateRate o.station x.finalRate).rli = s.rli
      ∧ ((s.applyCorrection o d).updateRate o.station x.finalRate).stt.linkNotes = s.stt.linkNotes
      ∧ ((s.applyCorrection o d).updateRate o.station x.finalRate).ord = s.ord
      ∧ ((s.applyCorrection o d).updateRate o.station x.finalRate).sel = (s.applyCorrection o d).sel := by simp
  unfold State.acceptOutcome
  dsimp only
  rw [← hd, hq]
  generalize (s.applyCorrection o d).updateRate o.station x.finalRate = a at *
  obtain ⟨a1, a2, a3, a4, a5⟩ := ha
  dsimp only
  rw [concludeFrames_leaving _ _ _ _ (by simp only [returnFrames_keeps]; rw [hs]; exact hl)]
  set b := ((a.returnFrames (withResult marked .delivered)).returnFrames (withResult undone .failed)).countFrames
    o.station marked.length undone.length with hb
  have b1 : b.fpl = { s.fpl with returnList := (s.fpl.returnList
      ++ marked.map (fun f => ⟨f, .delivered⟩) ++ undone.map (fun f => ⟨f, .failed⟩)) } := by
    rw [hb]; simp [State.returnFrames, withResult, a1]
  have b2 : b.rli = s.rli ∧ b.stt.linkNotes = s.stt.linkNotes ∧ b.ord = s.ord
      ∧ b.sel = (s.applyCorrection o d).sel := by rw [hb]; simp [a2, a3, a4, a5]
  have b3 : b.station o.station = { a.station o.station with
      delivered := satAdd (a.station o.station).delivered marked.length
      failed := satAdd (a.station o.station).failed undone.length } := by
    rw [hb, countFrames_station _ _ _ _ _ hi]; simp
  clear_value b
  obtain ⟨b4, b5, b6, b7⟩ := b2
  have bl : (b.station o.station).state = .leaving := by rw [b3, hs]; exact hl
  have bi : (b.station o.station).inFlight = (s.station o.station).inFlight := by rw [b3, hs]
  have br : b.radioLine = s.radioLine := by simp [State.radioLine, b4, b5, b6]
  obtain ⟨l1, l2⟩ := lowerInFlight_line b o.station
  have l3 := lowerInFlight_any b o.station o.station
  have l4 : (b.lowerInFlight o.station).fpl = b.fpl ∧ (b.lowerInFlight o.station).sel = b.sel := by simp
  generalize b.lowerInFlight o.station = g at *
  refine ⟨l4.1.trans b1, fun h => ?_, fun h => ?_, l4.2.trans b7⟩
  · obtain ⟨m1, m2, _⟩ := l1 ⟨bl, by omega⟩
    refine ⟨?_, ?_, m2⟩
    · show g.station o.station = _
      rw [l3, if_pos ⟨rfl, bl, by omega⟩, b3, hs]
    · exact m1.trans (by rw [br])
  · obtain ⟨m1, m2, m3⟩ := l2 (fun e => by omega)
    refine ⟨?_, m1.trans b5, m2.trans b4, ?_⟩
    · show g.station o.station = _
      rw [l3, if_neg (fun e => by omega), b3, hs]
      simp [Station.concluded, satAdd]
    · show g.ord.cancelPending = _
      rw [m3, b6]

/-- An accepted outcome of a station that is not LEAVING (R125 to R127). -/
theorem acceptOutcome_kept (s : State) (x : Outcome) (o : Order) (d : Int) (marked undone back : List Frame)
    (hi : o.station < 512) (hl : (s.station o.station).state ≠ .leaving) (hd : d = (o.est : Int) - x.airtime)
    (hq : splitFrames o x = (marked, undone)) (hb : back = requeuedOf s undone) :
    (s.acceptOutcome o x).station o.station
        = { (s.station o.station).concluded s.mod.config o.station x d marked.length undone.length with
            state := if o.station ≠ 0 ∧ (s.station o.station).state = .idle ∧ back ≠ [] ∧ s.lane o.station o.lane = []
              then .backlogged else (s.station o.station).state
            quantum := if o.station ≠ 0 ∧ (s.station o.station).state = .idle ∧ back ≠ []
                ∧ s.lane o.station o.lane = [] ∧ s.rck.clocksRunning = true
              then 0 else (s.station o.station).quantum }
      ∧ (s.acceptOutcome o x).fpl = { s.fpl with
          lanes := (s.acceptOutcome o x).fpl.lanes
          expiry := back.foldl joinExpiry s.fpl.expiry
          framesRequeued := if back = [] then s.fpl.framesRequeued
            else min (s.fpl.framesRequeued + back.length) 4294967295
          returnList := s.fpl.returnList ++ marked.map (fun f => ⟨f, .delivered⟩)
            ++ (undone.filter fun f => deadlinePassed s.rck.deviceTime f.deadline
                || decide (s.mod.config.requeueMax ≤ f.requeues)).map
              (fun f => ⟨f, if deadlinePassed s.rck.deviceTime f.deadline = true then .expired else .failed⟩) }
      ∧ (∀ j l, (s.acceptOutcome o x).lane j l = if (j, l) = (o.station, o.lane)
          then back ++ s.lane o.station o.lane else s.lane j l)
      ∧ (s.acceptOutcome o x).sel = { (s.applyCorrection o d).sel with
          active := if o.station ≠ 0 ∧ (s.station o.station).state = .idle ∧ back ≠ [] ∧ s.lane o.station o.lane = []
              ∧ o.station ∉ s.sel.active
            then s.sel.active ++ [o.station] else s.sel.active
          prompt := if o.station ≠ 0 ∧ o.lane = .prompt ∧ back ≠ [] ∧ s.lane o.station o.lane = []
              ∧ o.station ∉ s.sel.prompt
              ∧ ((s.station o.station).state = .idle ∨ (s.station o.station).state = .backlogged)
            then s.sel.prompt ++ [o.station] else s.sel.prompt
          groupDue := if o.station = 0 ∧ back ≠ [] ∧ s.lane o.station o.lane = [] ∧ s.dozingCount = 0 then true
            else (s.applyCorrection o d).sel.groupDue }
      ∧ (s.acceptOutcome o x).stt.linkNotes = s.stt.linkNotes ∧ (s.acceptOutcome o x).rli = s.rli
      ∧ (s.acceptOutcome o x).ord.cancelPending = s.ord.cancelPending := by
  have hs := corrected_station s o d x.finalRate hi
  have ha : ((s.applyCorrection o d).updateRate o.station x.finalRate).fpl = s.fpl
      ∧ ((s.applyCorrection o d).updateRate o.station x.finalRate).rli = s.rli
      ∧ ((s.applyCorrection o d).updateRate o.station x.finalRate).stt.linkNotes = s.stt.linkNotes
      ∧ ((s.applyCorrection o d).updateRate o.station x.finalRate).ord = s.ord
      ∧ ((s.applyCorrection o d).updateRate o.station x.finalRate).sel = (s.applyCorrection o d).sel
      ∧ ((s.applyCorrection o d).updateRate o.station x.finalRate).mod = s.mod
      ∧ ((s.applyCorrection o d).updateRate o.station x.finalRate).rck.deviceTime = s.rck.deviceTime := by simp
  have hrk : ((s.applyCorrection o d).updateRate o.station x.finalRate).rck.clocksRunning = s.rck.clocksRunning := by
    simp
  have hal : ∀ j l, ((s.applyCorrection o d).updateRate o.station x.finalRate).lane j l = s.lane j l := by simp
  have hdz : ((s.applyCorrection o d).updateRate o.station x.finalRate).dozingCount = s.dozingCount :=
    dozingCount_corrected s o d x.finalRate
  have hse : (s.applyCorrection o d).sel.active = s.sel.active
      ∧ (s.applyCorrection o d).sel.prompt = s.sel.prompt := by simp
  unfold State.acceptOutcome
  dsimp only
  rw [← hd, hq]
  generalize (s.applyCorrection o d).updateRate o.station x.finalRate = a at *
  obtain ⟨a1, a2, a3, a4, a5, a6, a7⟩ := ha
  dsimp only
  have hc := concludeFrames_moves (a.returnFrames (withResult marked .delivered)) o .failed undone back hi
    (by simp only [returnFrames_keeps]; rw [hs]; exact hl)
    (by rw [hb]; unfold requeuedOf; simp [a6, a7])
  have hc2 := concludeFrames_keeps (a.returnFrames (withResult marked .delivered)) o .failed undone
  have hrd : (a.returnFrames (withResult marked .delivered)).dozingCount = a.dozingCount := rfl
  have hrr : (a.returnFrames (withResult marked .delivered)).fpl.returnList
      = s.fpl.returnList ++ marked.map (fun f => ⟨f, .delivered⟩) := by
    simp [State.returnFrames, withResult, a1]
  generalize (a.returnFrames (withResult marked .delivered)).concludeFrames o .failed undone = c at *
  simp only [returnFrames_keeps, hrd, hrr, hdz, hal, hrk, a1, a5, a6, a7, hse] at hc
  obtain ⟨c1, c2, c3, c4⟩ := hc
  have d1 := countFrames_station c o.station o.station marked.length undone.length hi
  have d2 := countFrames_keeps c o.station marked.length undone.length
  generalize c.countFrames o.station marked.length undone.length = b at *
  rw [if_pos rfl] at d1
  have hst : (a.station o.station).state = (s.station o.station).state := by rw [hs]
  have bs : (b.station o.station).state ≠ .leaving := by
    rw [d1, c3]
    split
    · simp [Station.resumed]
    · rw [hst]; exact hl
  obtain ⟨_, l2⟩ := lowerInFlight_line b o.station
  obtain ⟨m1, m2, m3⟩ := l2 fun e => bs e.1
  have l3 := lowerInFlight_any b o.station o.station
  rw [if_neg (fun e => bs e.2.1)] at l3
  have l4 := lowerInFlight_keeps b o.station
  generalize b.lowerInFlight o.station = g at *
  refine ⟨?_, ?_, fun j l => ?_, ?_, ?_, ?_, ?_⟩
  · show g.station o.station = _
    rw [l3, d1, c3, hst]
    simp only [true_and]
    by_cases h : o.station ≠ 0 ∧ (s.station o.station).state = .idle ∧ back ≠ [] ∧ s.lane o.station o.lane = []
    · rw [if_pos h, if_pos h, hs]
      cases hr : s.rck.clocksRunning <;> simp [Station.concluded, Station.resumed, satAdd, h]
    · have h' : ¬ (o.station ≠ 0 ∧ (s.station o.station).state = .idle ∧ back ≠ [] ∧ s.lane o.station o.lane = []
          ∧ s.rck.clocksRunning = true) := fun e => h ⟨e.1, e.2.1, e.2.2.1, e.2.2.2.1⟩
      rw [if_neg h, if_neg h, if_neg h', hs]
      simp [Station.concluded, satAdd]
  · show g.fpl = Fpl.mk _ g.fpl.lanes _ _ _ _ _ _ _ _
    have : g.fpl = c.fpl := by simp only [l4, d2]
    rw [this]
    exact c2
  · show g.lane j l = _
    simp only [l4, d2]
    exact c4 j l
  · show g.sel = _
    simp only [l4, d2]
    rw [c1, hst]
  · show g.stt.linkNotes = _
    rw [m1]
    simp only [d2, hc2, returnFrames_keeps, a3]
  · show g.rli = _
    rw [m2]
    simp only [d2, hc2, returnFrames_keeps, a2]
  · show g.ord.cancelPending = _
    rw [m3]
    simp only [d2, hc2, returnFrames_keeps, a4]

/-! ## Timeouts -/

/-- What a timeout leaves of ORD, the other stations and the radio side, whatever the station's state (R131, R134). -/
theorem loseOrder_common (s : State) (o : Order) (pre post : List Order) (ho : s.ord.outstanding = pre ++ o :: post)
    (hid : ∀ p ∈ pre ++ post, p.id ≠ o.id) (hi : o.station < 512) :
    { (s.loseOrder o).ord with cancelPending := s.ord.cancelPending } = { s.ord with
        outstanding := pre ++ post
        quarantine := (if 8 ≤ s.ord.quarantine.length then s.ord.quarantine.drop 1 else s.ord.quarantine) ++ [o.id]
        lossCount := min (s.ord.lossCount + 1) 255
        counters := { s.ord.counters with
          timeouts := min (s.ord.counters.timeouts + 1) 4294967295
          quarantineEvictions := (if 8 ≤ s.ord.quarantine.length
            then min (s.ord.counters.quarantineEvictions + 1) 4294967295
            else s.ord.counters.quarantineEvictions) } }
      ∧ (∀ j, j ≠ o.station → (s.loseOrder o).station j = s.station j)
      ∧ { (s.loseOrder o).rli with outbound := s.rli.outbound } = s.rli := by
  have hf : s.ord.outstanding.filter (fun x => x.id != o.id) = pre ++ post := by
    rw [ho]; exact filter_order_id hid
  unfold State.loseOrder
  dsimp only
  set a := (s.removeOrder o.id).quarantineId o.id with ha
  have a1 : a.ord = { s.ord with
      outstanding := pre ++ post
      quarantine := (if 8 ≤ s.ord.quarantine.length then s.ord.quarantine.drop 1 else s.ord.quarantine) ++ [o.id]
      counters := { s.ord.counters with
        quarantineEvictions := (if 8 ≤ s.ord.quarantine.length
          then min (s.ord.counters.quarantineEvictions + 1) 4294967295
          else s.ord.counters.quarantineEvictions) } } := by
    rw [ha]
    unfold State.quarantineId State.removeOrder
    simp only [updOrd_ord, Config.quarantineIds]
    by_cases h8 : 8 ≤ s.ord.quarantine.length
    · simp [h8, State.countOrd, State.updOrd, satAdd, hf]
    · simp [h8, State.updOrd, hf]
  have a2 : a.rli = s.rli ∧ ∀ j, a.station j = s.station j := by simp [ha]
  clear_value a
  refine ⟨?_, fun j hj => ?_, ?_⟩
  · simp only [State.countOrd, updOrd_ord, lowerInFlight_keeps, countLost_keeps, concludeFrames_keeps, a1, satAdd,
      Config.lossMax]
  · simp only [State.countOrd, updOrd_station]
    rw [lowerInFlight_any, if_neg (fun e => hj e.1.symm), countLost_station _ _ _ _ hi,
      concludeFrames_station_of_ne _ _ _ _ _ hi hj]
    simp [hj, Ne.symm hj, a2]
  · simp only [State.countOrd, updOrd_rli, lowerInFlight_keeps, countLost_keeps, concludeFrames_keeps, a2]

/-- The removal of an order and the quarantine of its id touch ORD alone. -/
theorem quarantined_keeps (s : State) (id : OrderId) :
    ((s.removeOrder id).quarantineId id).fpl = s.fpl ∧ ((s.removeOrder id).quarantineId id).stt = s.stt
      ∧ ((s.removeOrder id).quarantineId id).sel = s.sel ∧ ((s.removeOrder id).quarantineId id).rli = s.rli
      ∧ ((s.removeOrder id).quarantineId id).rck = s.rck ∧ ((s.removeOrder id).quarantineId id).mod = s.mod
      ∧ ((s.removeOrder id).quarantineId id).ord.cancelPending = s.ord.cancelPending := by
  unfold State.quarantineId
  split <;> simp [State.removeOrder, State.countOrd]

/-- A timed-out order of a LEAVING station (R8, R131). -/
theorem loseOrder_gone (s : State) (o : Order) (hl : (s.station o.station).state = .leaving) :
    (s.loseOrder o).fpl = { s.fpl with returnList := s.fpl.returnList ++ o.frames.map (fun f => ⟨f, .lost⟩) }
      ∧ (s.loseOrder o).sel = s.sel
      ∧ ((s.station o.station).inFlight ≤ 1 →
          (s.loseOrder o).station o.station = .cleared (s.station o.station).cohort
          ∧ (s.loseOrder o).radioLine = s.radioLine ++ [.unbind o.station] ∧ (s.loseOrder o).radioServed)
      ∧ (1 < (s.station o.station).inFlight →
          (s.loseOrder o).station o.station = { s.station o.station with
            failed := min ((s.station o.station).failed + o.frames.length) 4294967295
            inFlight := (s.station o.station).inFlight - 1 }
          ∧ (s.loseOrder o).stt.linkNotes = s.stt.linkNotes ∧ (s.loseOrder o).rli = s.rli
          ∧ (s.loseOrder o).ord.cancelPending = s.ord.cancelPending) := by
  have hi : o.station < 512 := by
    by_contra c
    rw [station_of_le _ (by omega)] at hl
    simp [Station.cleared] at hl
  unfold State.loseOrder
  dsimp only
  have ha := quarantined_keeps s o.id
  generalize (s.removeOrder o.id).quarantineId o.id = a at *
  obtain ⟨a1, a2, a3, a4, a5, a6, a7⟩ := ha
  have as : ∀ j, a.station j = s.station j := fun j => by simp [State.station, a2]
  rw [concludeFrames_leaving _ _ _ _ (by rw [as]; exact hl)]
  set b := (a.returnFrames (withResult o.frames .lost)).countLost o.station o.frames.length with hb
  have b1 : b.fpl = { s.fpl with returnList := s.fpl.returnList ++ o.frames.map (fun f => ⟨f, .lost⟩) } := by
    rw [hb]; simp [State.returnFrames, withResult, a1]
  have b2 : b.rli = s.rli ∧ b.stt.linkNotes = s.stt.linkNotes ∧ b.ord.cancelPending = s.ord.cancelPending
      ∧ b.sel = s.sel := by rw [hb]; simp [a2, a3, a4, a7]
  have b3 : b.station o.station = { s.station o.station with
      failed := satAdd (s.station o.station).failed o.frames.length } := by
    rw [hb, countLost_station _ _ _ _ hi]; simp [as]
  clear_value b
  obtain ⟨b4, b5, b6, b7⟩ := b2
  have bl : (b.station o.station).state = .leaving := by rw [b3]; exact hl
  have bi : (b.station o.station).inFlight = (s.station o.station).inFlight := by rw [b3]
  have br : b.radioLine = s.radioLine := by simp [State.radioLine, b4, b5, b6]
  obtain ⟨l1, l2⟩ := lowerInFlight_line b o.station
  have l3 := lowerInFlight_any b o.station o.station
  have l4 : (b.lowerInFlight o.station).fpl = b.fpl ∧ (b.lowerInFlight o.station).sel = b.sel := by simp
  generalize b.lowerInFlight o.station = g at *
  refine ⟨l4.1.trans b1, l4.2.trans b7, fun h => ?_, fun h => ?_⟩
  · obtain ⟨m1, m2, _⟩ := l1 ⟨bl, by omega⟩
    refine ⟨?_, m1.trans (by rw [br]), m2⟩
    show g.station o.station = _
    rw [l3, if_pos ⟨rfl, bl, by omega⟩, b3]
  · obtain ⟨m1, m2, m3⟩ := l2 (fun e => by omega)
    refine ⟨?_, m1.trans b5, m2.trans b4, ?_⟩
    · show g.station o.station = _
      rw [l3, if_neg (fun e => by omega), b3]
      simp [satAdd]
    · show g.ord.cancelPending = _
      rw [m3, b6]

/-- A timed-out order of a station that is not LEAVING (R3, R32, R131). -/
theorem loseOrder_kept (s : State) (o : Order) (back : List Frame) (hi : o.station < 512)
    (hl : (s.station o.station).state ≠ .leaving) (hb : back = requeuedOf s o.frames) :
    (s.loseOrder o).station o.station = { s.station o.station with
        state := if o.station ≠ 0 ∧ (s.station o.station).state = .idle ∧ back ≠ [] ∧ s.lane o.station o.lane = []
          then .backlogged else (s.station o.station).state
        quantum := if o.station ≠ 0 ∧ (s.station o.station).state = .idle ∧ back ≠ []
            ∧ s.lane o.station o.lane = [] ∧ s.rck.clocksRunning = true
          then 0 else (s.station o.station).quantum
        failed := min ((s.station o.station).failed + o.frames.length) 4294967295
        inFlight := (s.station o.station).inFlight - 1 }
      ∧ (s.loseOrder o).fpl = { s.fpl with
          lanes := (s.loseOrder o).fpl.lanes
          expiry := back.foldl joinExpiry s.fpl.expiry
          framesRequeued := if back = [] then s.fpl.framesRequeued
            else min (s.fpl.framesRequeued + back.length) 4294967295
          returnList := s.fpl.returnList
            ++ (o.frames.filter fun f => deadlinePassed s.rck.deviceTime f.deadline
                || decide (s.mod.config.requeueMax ≤ f.requeues)).map
              (fun f => ⟨f, if deadlinePassed s.rck.deviceTime f.deadline = true then .expired else .lost⟩) }
      ∧ (∀ j l, (s.loseOrder o).lane j l = if (j, l) = (o.station, o.lane)
          then back ++ s.lane o.station o.lane else s.lane j l)
      ∧ (s.loseOrder o).sel = { s.sel with
          active := if o.station ≠ 0 ∧ (s.station o.station).state = .idle ∧ back ≠ [] ∧ s.lane o.station o.lane = []
              ∧ o.station ∉ s.sel.active
            then s.sel.active ++ [o.station] else s.sel.active
          prompt := if o.station ≠ 0 ∧ o.lane = .prompt ∧ back ≠ [] ∧ s.lane o.station o.lane = []
              ∧ o.station ∉ s.sel.prompt
              ∧ ((s.station o.station).state = .idle ∨ (s.station o.station).state = .backlogged)
            then s.sel.prompt ++ [o.station] else s.sel.prompt
          groupDue := if o.station = 0 ∧ back ≠ [] ∧ s.lane o.station o.lane = [] ∧ s.dozingCount = 0 then true
            else s.sel.groupDue }
      ∧ (s.loseOrder o).stt.linkNotes = s.stt.linkNotes ∧ (s.loseOrder o).rli = s.rli
      ∧ (s.loseOrder o).ord.cancelPending = s.ord.cancelPending := by
  unfold State.loseOrder
  dsimp only
  have ha := quarantined_keeps s o.id
  generalize (s.removeOrder o.id).quarantineId o.id = a at *
  obtain ⟨a1, a2, a3, a4, a5, a6, a7⟩ := ha
  have as : ∀ j, a.station j = s.station j := fun j => by simp [State.station, a2]
  have al : ∀ j l, a.lane j l = s.lane j l := fun j l => by simp [State.lane, State.lanesOf, a1]
  have ad : a.dozingCount = s.dozingCount := by simp [State.dozingCount, a2]
  have hc := concludeFrames_moves a o .lost o.frames back hi (by rw [as]; exact hl)
    (by rw [hb]; unfold requeuedOf; rw [a5, a6])
  have hc2 := concludeFrames_keeps a o .lost o.frames
  generalize a.concludeFrames o .lost o.frames = c at *
  simp only [as, al, ad, a1, a3, a5, a6] at hc
  obtain ⟨c1, c2, c3, c4⟩ := hc
  have d1 := countLost_station c o.station o.station o.frames.length hi
  have d2 := countLost_keeps c o.station o.frames.length
  generalize c.countLost o.station o.frames.length = b at *
  rw [if_pos rfl] at d1
  have bs : (b.station o.station).state ≠ .leaving := by
    rw [d1, c3]
    split
    · simp [Station.resumed]
    · exact hl
  obtain ⟨_, l2⟩ := lowerInFlight_line b o.station
  obtain ⟨m1, m2, m3⟩ := l2 fun e => bs e.1
  have l3 := lowerInFlight_any b o.station o.station
  rw [if_neg (fun e => bs e.2.1)] at l3
  have l4 := lowerInFlight_keeps b o.station
  generalize b.lowerInFlight o.station = g at *
  refine ⟨?_, ?_, fun j l => ?_, ?_, ?_, ?_, ?_⟩
  · show g.station o.station = _
    rw [l3, d1, c3]
    simp only [true_and]
    by_cases h : o.station ≠ 0 ∧ (s.station o.station).state = .idle ∧ back ≠ [] ∧ s.lane o.station o.lane = []
    · rw [if_pos h, if_pos h]
      cases hr : s.rck.clocksRunning <;> simp [Station.resumed, satAdd, h]
    · have h' : ¬ (o.station ≠ 0 ∧ (s.station o.station).state = .idle ∧ back ≠ [] ∧ s.lane o.station o.lane = []
          ∧ s.rck.clocksRunning = true) := fun e => h ⟨e.1, e.2.1, e.2.2.1, e.2.2.2.1⟩
      rw [if_neg h, if_neg h, if_neg h']
      simp [satAdd]
  · show g.fpl = Fpl.mk _ g.fpl.lanes _ _ _ _ _ _ _ _
    have : g.fpl = c.fpl := by simp only [l4, d2]
    rw [this]
    exact c2
  · show g.lane j l = _
    simp only [l4, d2]
    exact c4 j l
  · show g.sel = _
    simp only [l4, d2]
    exact c1
  · show g.stt.linkNotes = _
    rw [m1]
    simp only [d2, hc2, a2]
  · show g.rli = _
    rw [m2]
    simp only [d2, hc2, a4]
  · show g.ord.cancelPending = _
    rw [m3]
    simp only [d2, hc2, a7]

/-! ## The end of a drain -/

/-- What follows a conclusion: the end of a drain that it empties, and otherwise a selection run (R165, R104). -/
theorem conclusion_follows (t : State) (left : List Order) (h : t.ord.outstanding = left) :
    t.reportEmpty.selectionRun
      = if t.mod.mode = .draining ∧ left = [] then t.enterReady else t.selectionRun := by
  unfold State.reportEmpty
  rw [h]
  split
  · unfold State.selectionRun
    rw [if_neg]
    simp only [State.selectionOpen]
    rw [enterReady_mod _ (by rename_i e; rw [e.1]; simp)]
    simp
  · rfl

end Sys2Proof.Machine
end

