-- ==== Sys2Proof/Laws/Line.lean ====
section
/-!
SUPPORT. What stands in line for the MAC behind ABORT and a soft reset: the notes of the cancelled orders, the CANCEL_ALL
and the POLL_EMPTY notes of the flush (R6, R21, R116, R137, R183).
-/

namespace Sys2Proof.Machine

/-! ## Notes in the queue -/

/-- What a note that joins leaves in the link note queue (R6): nothing but notes that stood there and itself, and all of
them while the radio outbound queue is full. -/
theorem formNote_notes (s : State) (n : LinkNote) :
    (∀ x ∈ (s.formNote n).stt.linkNotes, x ∈ s.stt.linkNotes ∨ x = n)
      ∧ (s.radioFree = 0 → (s.formNote n).stt.linkNotes = s.stt.linkNotes ++ [n]
        ∧ (s.formNote n).radioFree = 0) := by
  unfold State.formNote State.serveNotes State.giveNotes
  refine ⟨fun x hx => ?_, fun h => ?_⟩
  · have := List.mem_of_mem_drop hx
    simpa using this
  · have hc : (s.updStt fun t => { t with linkNotes := t.linkNotes ++ [n] }).giveCancel
        = s.updStt fun t => { t with linkNotes := t.linkNotes ++ [n] } := by
      unfold State.giveCancel
      simp [h]
    rw [hc]
    have hk : ∀ k, (s.updStt fun t => { t with linkNotes := t.linkNotes ++ [n] }).notesServed k = 0 := by
      intro k
      unfold State.notesServed
      simp [h]
    simp only [hk]
    refine ⟨by simp, ?_⟩
    simpa [State.radioFree] using h

/-- One cancelled order adds no note but its station's UNBIND, and takes none while the radio outbound queue is full. -/
theorem cancelOrder_notes (s : State) (o : Order) :
    (∀ x ∈ (s.cancelOrder o).stt.linkNotes, x ∈ s.stt.linkNotes ∨ x = .unbind o.station)
      ∧ (s.radioFree = 0 → (∀ x ∈ s.stt.linkNotes, x ∈ (s.cancelOrder o).stt.linkNotes)
        ∧ (s.cancelOrder o).radioFree = 0) := by
  unfold State.cancelOrder
  dsimp only
  set u := ((s.removeOrder o.id).quarantineId o.id).returnFrames (withResult o.frames .aborted) with hu
  have u1 : u.rli = s.rli ∧ u.stt = s.stt := by
    rw [hu]
    unfold State.quarantineId
    split <;> simp [State.removeOrder, State.returnFrames, State.countOrd]
  clear_value u
  have hf : u.radioFree = s.radioFree := by simp [State.radioFree, u1.1]
  have hc : ∀ (t : State) (f : OrdCounters → OrdCounters), (t.countOrd f).stt = t.stt
      ∧ (t.countOrd f).radioFree = t.radioFree := fun _ _ => ⟨rfl, rfl⟩
  simp only [hc]
  unfold State.lowerInFlight
  dsimp only
  split
  · obtain ⟨g1, g2⟩ := formNote_notes
      ((u.updStation o.station fun x => { x with inFlight := x.inFlight - 1 }).clearStation o.station)
      (.unbind o.station)
    have k : ((u.updStation o.station fun x => { x with inFlight := x.inFlight - 1 }).clearStation
        o.station).stt.linkNotes = s.stt.linkNotes := by simp [u1.2]
    have kf : ((u.updStation o.station fun x => { x with inFlight := x.inFlight - 1 }).clearStation
        o.station).radioFree = s.radioFree := hf
    rw [k] at g1 g2
    rw [kf] at g2
    refine ⟨g1, fun h => ⟨fun x hx => ?_, (g2 h).2⟩⟩
    rw [(g2 h).1]
    simp [hx]
  · refine ⟨fun x hx => ?_, fun h => ⟨fun x hx => ?_, ?_⟩⟩
    · left; simpa [u1.2] using hx
    · simpa [u1.2] using hx
    · simpa [hf] using h

/-- The notes behind cancelled orders (R8, R137). -/
theorem cancelFold_notes (os : List Order) (s : State) :
    (∀ x ∈ (os.foldl State.cancelOrder s).stt.linkNotes, x ∈ s.stt.linkNotes ∨ ∃ i, x = .unbind i)
      ∧ (s.radioFree = 0 → (∀ x ∈ s.stt.linkNotes, x ∈ (os.foldl State.cancelOrder s).stt.linkNotes)
        ∧ (os.foldl State.cancelOrder s).radioFree = 0) := by
  induction os generalizing s with
  | nil => exact ⟨fun x hx => Or.inl hx, fun h => ⟨fun x hx => hx, h⟩⟩
  | cons o os ih =>
    obtain ⟨a1, a2⟩ := ih (s.cancelOrder o)
    obtain ⟨b1, b2⟩ := cancelOrder_notes s o
    simp only [List.foldl_cons]
    refine ⟨fun x hx => ?_, fun h => ⟨fun x hx => ?_, (a2 (b2 h).2).2⟩⟩
    · rcases a1 x hx with h | h
      · rcases b1 x h with h | h
        · exact Or.inl h
        · exact Or.inr ⟨_, h⟩
      · exact Or.inr h
    · exact (a2 (b2 h).2).1 x ((b2 h).1 x hx)

/-! ## The line behind a cancellation -/

/-- The line behind the cancelled orders and their CANCEL_ALL (R8, R137, R183). -/
theorem cancelOrders_line (s : State) :
    (s.goneOf s.ord.outstanding = [] →
      s.cancelOrders.radioLine = s.rli.outbound ++ [.cancelAll] ++ s.stt.linkNotes.map LinkNote.toRecord
        ∧ s.cancelOrders.stt.linkNotes = s.stt.linkNotes
        ∧ s.cancelOrders.rli.outbound = s.rli.outbound ++ (if s.radioFree = 0 then [] else [.cancelAll]))
    ∧ (s.goneOf s.ord.outstanding ≠ [] →
      (∀ i ∈ s.goneOf s.ord.outstanding, (s.station i).inFlight = s.ordersNaming i) →
      s.cancelOrders.radioLine =
          (if s.ord.cancelPending = true ∧ s.radioFree = 0
            then s.radioLine ++ (s.goneOf s.ord.outstanding).map RadioRecord.unbind
            else (s.radioLine ++ (s.goneOf s.ord.outstanding).map RadioRecord.unbind).take (max s.rli.outbound.length 8)
              ++ [.cancelAll]
              ++ (s.radioLine ++ (s.goneOf s.ord.outstanding).map RadioRecord.unbind).drop (max s.rli.outbound.length 8))
        ∧ s.cancelOrders.rli.outbound = s.cancelOrders.radioLine.take (max s.rli.outbound.length 8)) := by
  have hr := cancelFold_radio s.ord.outstanding s
  have hreq := requestCancelAll_line (s.ord.outstanding.foldl State.cancelOrder s)
  have hco : s.cancelOrders = (s.ord.outstanding.foldl State.cancelOrder s).requestCancelAll := rfl
  rw [hco]
  generalize (s.ord.outstanding.foldl State.cancelOrder s) = w at *
  have hrr : w.requestCancelAll.radioLine = w.requestCancelAll.rli.outbound
      ++ (if w.requestCancelAll.ord.cancelPending then [.cancelAll] else [])
      ++ w.requestCancelAll.stt.linkNotes.map LinkNote.toRecord := rfl
  have hro : w.requestCancelAll.rli.outbound = w.rli.outbound ++ (if w.radioFree = 0 then [] else [.cancelAll]) := by
    rw [hreq.2.1]
  have hnt : w.requestCancelAll.stt.linkNotes = w.stt.linkNotes := by rw [hreq.1]
  rw [hnt, hro, hreq.2.2] at hrr
  dsimp only at hrr
  refine ⟨fun hg => ?_, fun hg hin => ?_⟩
  · obtain ⟨_, c2, c3, _⟩ := hr.1 hg
    have hf : w.radioFree = s.radioFree := by simp [State.radioFree, c2]
    rw [c2, c3, hf] at hrr
    refine ⟨?_, by rw [hnt, c3], by rw [hro, c2, hf]⟩
    rw [hrr]
    by_cases hz : s.radioFree = 0 <;> simp [hz]
  · obtain ⟨c1, c2, c3⟩ := hr.2 hg hin
    have hll : s.rli.outbound.length ≤ (s.radioLine ++ (s.goneOf s.ord.outstanding).map RadioRecord.unbind).length := by
      simp [State.radioLine]
    generalize (s.radioLine ++ (s.goneOf s.ord.outstanding).map RadioRecord.unbind) = line at *
    have hw : w.radioFree = 8 - min (max s.rli.outbound.length 8) line.length := by
      unfold State.radioFree Config.radioOutbound; rw [c2]; simp
    have hline' : w.radioLine = w.rli.outbound ++ (if w.ord.cancelPending then [.cancelAll] else [])
      ++ w.stt.linkNotes.map LinkNote.toRecord := rfl
    have hwo : w.rli.outbound = line.take (max s.rli.outbound.length 8) := by rw [c2]
    generalize hM : max s.rli.outbound.length 8 = M at *
    by_cases hcz : s.ord.cancelPending = true ∧ s.radioFree = 0
    · have hwc : w.ord.cancelPending = true := by rw [c3]; simp [hcz]
      have h8 : 8 ≤ s.rli.outbound.length := by
        have := hcz.2; unfold State.radioFree Config.radioOutbound at this; omega
      have hw0 : w.radioFree = 0 := by rw [hw]; omega
      rw [if_pos hcz]
      rw [hwc] at hline'
      rw [hw0] at hrr hro
      have e1 : w.requestCancelAll.radioLine = line := by rw [hrr, ← c1, hline']; simp
      rw [e1, hro, hwo]
      simp
    · have hwc : w.ord.cancelPending = false := by
        rw [c3]; by_contra e; simp at e; exact hcz e
      rw [if_neg hcz]
      rw [hwc] at hline'
      have hnotes : w.stt.linkNotes.map LinkNote.toRecord = line.drop M := by
        have : line.take M ++ w.stt.linkNotes.map LinkNote.toRecord = line.take M ++ line.drop M := by
          have e := hline'.symm.trans c1
          simp only [Bool.false_eq_true, if_false, List.append_nil, hwo] at e
          rw [List.take_append_drop]; exact e
        exact List.append_cancel_left this
      by_cases hz : w.radioFree = 0
      · rw [hz] at hrr hro
        have e1 : w.requestCancelAll.radioLine = line.take M ++ [.cancelAll] ++ line.drop M := by
          rw [hrr, hnotes, hwo]; simp
        have hML : M ≤ line.length := by rw [hw] at hz; omega
        refine ⟨e1, ?_⟩
        rw [e1, hro, hwo, List.append_assoc, List.take_append_of_le_length (by simp; omega)]
        simp
      · have hML : line.length < 8 := by rw [hw] at hz; omega
        have hdrop : line.drop M = [] := by apply List.drop_eq_nil_of_le; omega
        rw [if_neg hz] at hrr hro
        have hz' : decide (w.radioFree = 0) = false := by simp [hz]
        rw [hz', hnotes, hdrop] at hrr
        have e1 : w.requestCancelAll.radioLine = line.take M ++ [.cancelAll] ++ line.drop M := by
          rw [hrr, hdrop, hwo]; simp
        refine ⟨e1, ?_⟩
        rw [e1, hro, hwo, hdrop, List.append_nil,
          List.take_of_length_le (i := M) (l := List.take M line ++ [RadioRecord.cancelAll])]
        simp; omega

/-! ## The line behind a flush -/

/-- A station whose grant a flush withdraws (R3, R116). -/
abbrev State.Polled (s : State) (i : Nat) : Prop :=
  i ≠ 0 ∧ i ∈ s.sel.poll ∧ (s.station i).state = .dozing ∧ (s.lanesOf i).allEmpty = false

/-- The flush of one station leaves the grant of another as it is (R46). -/
theorem polled_flushStation (s : State) (i j : Nat) (h : j ≠ i) :
    (s.returnLanes i .flushed allLanes).Polled j ↔ s.Polled j := by
  unfold State.Polled
  rw [flushStation_lanesOf, if_neg h, flushStation_station, if_neg (fun e => h e.1), returnLanes_poll]
  have : ∀ l : List Nat, (j ∈ l.erase i ↔ j ∈ l) := fun l => List.mem_erase_of_ne h
  split <;> simp [this]

/-- The flush of one station forms one POLL_EMPTY note, or touches neither queue (R3, R6). -/
theorem flushStation_radio (s : State) (i : Nat) :
    (s.Polled i ∧ LinkNote.pollEmpty i ∉ s.stt.linkNotes → ∃ w : State, w.rli = s.rli
        ∧ w.stt.linkNotes = s.stt.linkNotes ∧ w.ord = s.ord
        ∧ s.returnLanes i .flushed allLanes = w.formNote (.pollEmpty i))
    ∧ (¬ (s.Polled i ∧ LinkNote.pollEmpty i ∉ s.stt.linkNotes) →
      (s.returnLanes i .flushed allLanes).stt.linkNotes = s.stt.linkNotes
        ∧ (s.returnLanes i .flushed allLanes).rli = s.rli ∧ (s.returnLanes i .flushed allLanes).ord = s.ord) := by
  have he : ((s.returnLanes i .flushed allLanes).lanesOf i).allEmpty = true := by
    rw [flushStation_lanesOf, if_pos rfl]; rfl
  refine ⟨fun ⟨⟨h0, h1, h2, h3⟩, h4⟩ => ?_, fun h => ?_⟩
  · exact returnLanes_forms _ _ _ _ h0 h2 (by rw [holdsAny_all, h3]; rfl) he h1 h4
  · by_cases h0 : i = 0
    · exact returnLanes_radio _ _ _ _ (Or.inr (Or.inl h0))
    · by_cases h2 : (s.station i).state = .dozing
      · by_cases h3 : (s.lanesOf i).allEmpty = true
        · exact returnLanes_radio _ _ _ _ (Or.inl (by rw [holdsAny_all, h3]; rfl))
        · apply returnLanes_silent
          by_cases h1 : i ∈ s.sel.poll
          · right; right
            by_contra h4
            exact h ⟨⟨h0, h1, h2, by simpa using h3⟩, h4⟩
          · exact Or.inr (Or.inl h1)
      · exact returnLanes_radio _ _ _ _ (Or.inr (Or.inr h2))

/-- The flush of the stations of a list: a POLL_EMPTY note behind the line for each grant withdrawn whose station has
none queued (R3, R6, R116, R183). -/
theorem flushList_told (is : List Nat) (hn : is.Nodup) (s : State) :
    ∃ told : List Nat, told.Sublist (is.filter fun i => decide (s.Polled i))
      ∧ (∀ i ∈ is, s.Polled i → i ∉ told → LinkNote.pollEmpty i ∈ s.stt.linkNotes)
      ∧ (s.radioFree = 0 → ∀ i ∈ told, LinkNote.pollEmpty i ∉ s.stt.linkNotes)
      ∧ (flushList is s).radioLine = s.radioLine ++ told.map .pollEmpty
      ∧ (told = [] → (flushList is s).stt.linkNotes = s.stt.linkNotes ∧ (flushList is s).rli = s.rli)
      ∧ (told ≠ [] → (flushList is s).rli.outbound
          = (flushList is s).radioLine.take (max s.rli.outbound.length 8)) := by
  induction is generalizing s with
  | nil => exact ⟨[], by simp [flushList]⟩
  | cons i is ih =>
    obtain ⟨hi, hn'⟩ := List.nodup_cons.mp hn
    have e : flushList (i :: is) s = flushList is (s.returnLanes i .flushed allLanes) := rfl
    rw [e]
    obtain ⟨r1, r2⟩ := flushStation_radio s i
    have hp := fun j (h : j ∈ is) => polled_flushStation s i j (by rintro rfl; exact hi h)
    generalize s.returnLanes i .flushed allLanes = u at *
    obtain ⟨told, t1, t2, t3, t4, t5, t6⟩ := ih hn' u
    have hfil : (is.filter fun j => decide (u.Polled j)) = is.filter fun j => decide (s.Polled j) :=
      List.filter_congr fun j h => by rw [decide_eq_decide]; exact hp j h
    rw [hfil] at t1
    have htold : ∀ j ∈ told, j ∈ is := fun j h => (List.mem_filter.mp (t1.subset h)).1
    by_cases hf : s.Polled i ∧ LinkNote.pollEmpty i ∉ s.stt.linkNotes
    · obtain ⟨w, w1, w2, w3, w4⟩ := r1 hf
      obtain ⟨g1, g2⟩ := formNote_notes w (.pollEmpty i)
      obtain ⟨l1, l2, _⟩ := formNote_line w (.pollEmpty i)
      have wf : w.radioFree = s.radioFree := by simp [State.radioFree, w1]
      have wl : w.radioLine = s.radioLine := by simp [State.radioLine, w1, w2, w3]
      rw [← w4, w2] at g1 g2
      rw [wf] at g2
      rw [← w4, wl] at l1 l2
      rw [w1] at l2
      have hlen : s.rli.outbound.length ≤ s.radioLine.length := by simp [State.radioLine]
      have hm : max u.rli.outbound.length 8 = max s.rli.outbound.length 8 := by
        rw [l2, List.length_take]
        simp only [List.length_append, List.length_singleton]
        omega
      refine ⟨i :: told, ?_, ?_, ?_, ?_, by simp, fun _ => ?_⟩
      · rw [List.filter_cons_of_pos (by simpa using hf.1)]
        exact t1.cons_cons i
      · intro j hj hpj hnt
        simp only [List.mem_cons, not_or] at hj hnt
        rcases hj with hj | hj
        · exact absurd hj hnt.1
        · rcases g1 _ (t2 j hj ((hp j hj).mpr hpj) hnt.2) with h | h
          · exact h
          · injection h with h
            exact absurd h hnt.1
      · intro hz j hj
        rcases List.mem_cons.mp hj with rfl | hj
        · exact hf.2
        · intro hx
          refine t3 (g2 hz).2 j hj ?_
          rw [(g2 hz).1]
          simp [hx]
      · rw [t4, l1]; simp [LinkNote.toRecord]
      · by_cases ht : told = []
        · rw [(t5 ht).2, t4, ht, l1, l2]; simp
        · rw [t6 ht, hm]
    · obtain ⟨q1, q2, q3⟩ := r2 hf
      have hl : u.radioLine = s.radioLine := by simp [State.radioLine, q1, q2, q3]
      have hr : u.radioFree = s.radioFree := by simp [State.radioFree, q2]
      rw [q1] at t2 t3 t5
      rw [hr] at t3
      rw [hl] at t4
      rw [q2] at t5 t6
      refine ⟨told, ?_, ?_, t3, t4, t5, t6⟩
      · exact t1.trans ((List.sublist_cons_self i is).filter _)
      · intro j hj hpj hnt
        rcases List.mem_cons.mp hj with rfl | hj
        · by_contra hc
          exact hf ⟨hpj, hc⟩
        · exact t2 j hj ((hp j hj).mpr hpj) hnt

end Sys2Proof.Machine
end

