-- ==== Sys2Proof/Laws/Rounds.lean ====
section
/-!
SUPPORT. What a boundary leaves: the state behind the staged changes, the figures formed from it (R53 to R59, R72, R89), and the
closing of the round (R79, R81).
-/

namespace Sys2Proof.Machine

/-- the part at a boundary, behind the staged changes -/
def beforeFigures (s : State) : State := (s.clearStationUsage.clearCohortUsage.applyStagedStations).applyStagedCohorts

theorem beforeFigures_cohort (s : State) {c} (hc : c < 32) : (beforeFigures s).cohort c = { s.cohort c with
    span := (s.cohort c).stagedSpan.getD (s.cohort c).span, stagedSpan := none
    capPm := (s.cohort c).stagedCapPm.getD (s.cohort c).capPm, stagedCapPm := none, usedRound := 0 } := by
  unfold beforeFigures State.applyStagedCohorts
  simp only [membershipAfter_keeps]
  unfold State.clearCohortUsage State.cohort State.updCoh
  simp [Table.get_mapIdx, hc, Config.cohortCount, Cohort.applyStaged]

theorem beforeFigures_station (s : State) (i) : (beforeFigures s).station i = { s.station i with
    weight := (s.station i).stagedWeight.getD (s.station i).weight, stagedWeight := none
    held := (s.station i).stagedHold.getD (s.station i).held, stagedHold := none, usedRound := 0
    cohort := if i < 512 ∧ ¬ (beforeFigures s).coh.cohorts.rows.map Cohort.span = s.coh.cohorts.rows.map Cohort.span then memberOf (beforeFigures s).coh.cohorts.rows i else (s.station i).cohort } := by
  by_cases hi : i < 512
  · have hsp : s.clearStationUsage.clearCohortUsage.coh.cohorts.rows.map Cohort.span
      = s.coh.cohorts.rows.map Cohort.span := by
      apply (spans_eq_iff _ _).mpr
      intro c hc
      unfold State.clearCohortUsage State.updCoh
      simp [Table.get_mapIdx, hc, Config.cohortCount]
    unfold beforeFigures State.applyStagedCohorts
    rw [membershipAfter_station _ _ _ hi]
    have : (s.clearStationUsage.clearCohortUsage.applyStagedStations).station i
        = ({ s.station i with usedRound := 0 }:Station).applyStaged := by
      unfold State.applyStagedStations State.station State.updStt State.clearCohortUsage State.clearStationUsage State.updCoh State.updStt
      simp [Table.get_mapIdx, hi, Config.stationCount]
    simp only [updCoh_station, this]
    simp only [hi, true_and, Station.applyStaged, membershipAfter_keeps, updCoh_coh, ite_not,
        applyStagedStations_keeps]
    simp [hsp]
  · rw [station_of_le _ (by omega), station_of_le _ (by omega)]
    simp [hi, Station.cleared]

theorem beginRound_eq (s : State) : s.beginRound = (beforeFigures s).formFigures := rfl

theorem beforeFigures_weightOf (s : State) (i) : (beforeFigures s).weightOf i = (s.station i).stagedWeight.getD (s.station i).weight := by
  simp [State.weightOf, beforeFigures_station]

@[simp] theorem beforeFigures_keeps (s : State) : (beforeFigures s).sel = s.sel ∧ (beforeFigures s).mod = s.mod ∧ (beforeFigures s).rck = s.rck
    ∧ (beforeFigures s).mgd = s.mgd ∧ (beforeFigures s).stt.linkNotes = s.stt.linkNotes
    ∧ (beforeFigures s).stt.radioIgnored = s.stt.radioIgnored := by
  simp [beforeFigures]

theorem beforeFigures_weightSum (s : State) : (beforeFigures s).weightSum = s.boundaryWeight := by
  unfold State.weightSum State.boundaryWeight
  simp
  congr 2
  funext i
  exact beforeFigures_weightOf s i

theorem beforeFigures_quantum (s : State) (pool i) : quantumOf pool ((beforeFigures s).weightOf i) (beforeFigures s).weightSum
    = s.boundaryQuantum pool i := by
  rw [beforeFigures_weightOf, beforeFigures_weightSum]; rfl

theorem formFigures_station (a : State) (i) (hi : i < 512) : a.formFigures.station i
    = (a.station i).refill a.mod.config (poolOf a.mod.config (usableAirtime a.mod.config a.sampleFree)) a.weightSum (decide (i ∈ a.sel.active)) i := by
  unfold State.formFigures
  dsimp only
  simp only [updRck_station, updSel_station, refillCohorts_keeps]
  unfold State.refillStations State.updStt State.station
  simp [Table.get_mapIdx, hi, Config.stationCount]

theorem formFigures_cohort (a : State) (c) (hc : c < 32) : a.formFigures.cohort c
    = (a.cohort c).refill (usableAirtime a.mod.config a.sampleFree) := by
  unfold State.formFigures
  dsimp only
  simp only [updRck_cohort, updSel_cohort]
  unfold State.refillCohorts State.cohort State.updCoh
  simp [Table.get_mapIdx, hc, Config.cohortCount]

theorem formFigures_spans (a : State) : a.formFigures.coh.cohorts.rows.map Cohort.span
    = a.coh.cohorts.rows.map Cohort.span := by
  apply (spans_eq_iff _ _).mpr
  intro c hc
  have := formFigures_cohort a c hc
  unfold State.cohort at this
  rw [this]
  unfold Cohort.refill
  split <;> rfl

theorem memberOf_congr (a b : List Cohort) (h : a.map Cohort.span = b.map Cohort.span) (i) : memberOf a i
    = memberOf b i := by
  unfold memberOf
  split
  · rfl
  · have : ∀ l : List Cohort, l.findIdx? (fun c => c.enabled && spanHolds c.span i)
      = (l.map Cohort.span).findIdx? (fun x => x != 0 && spanHolds x i) := by
      intro l
      rw [List.findIdx?_map]
      rfl
    rw [this, this, h]

/-- A boundary at `s` with the free share `pm` refills station `i` as StationBegun says (R11, R19, R56). -/
theorem beginRound_stationBegun (s : State) (pool : Nat) {i : Nat} (hi : i < 512)
    (hp : pool = poolOf s.mod.config (usableAirtime s.mod.config (clampNat s.mod.config.freeFloorPm 1000 s.mgd.freeNow))) :
    StationBegun s.mod.config i (decide (i ∈ s.sel.active)) (s.boundaryQuantum pool i) (s.station i)
      (s.beginRound.station i) := by
  have hsf : (beforeFigures s).sampleFree
      = clampNat s.mod.config.freeFloorPm 1000 s.mgd.freeNow := by simp [State.sampleFree, freePm]
  have hq := beforeFigures_quantum s pool i
  rw [beginRound_eq, formFigures_station _ _ hi, hsf]
  unfold State.weightOf at hq
  rw [beforeFigures_station] at hq ⊢
  simp only [beforeFigures_keeps] at hq ⊢
  rw [← hp]
  generalize (beforeFigures s).weightSum = w at *
  unfold Station.refill
  constructor
  all_goals (try (split_ifs <;> simp <;> done))
  · intro h0 hv ha
    simp [h0, hv, ha, hq, capOf]
  · intro h0 hv ha
    simp [h0, hv, ha]
  · intro h
    rw [if_pos (by tauto)]
    simp

/-- A boundary at `s` refills cohort `c` as CohortBegun says (R59, R89). -/
theorem beginRound_cohortBegun (s : State) (usable : Nat) {c : Nat} (hc : c < 32)
    (hu : usable = usableAirtime s.mod.config (clampNat s.mod.config.freeFloorPm 1000 s.mgd.freeNow)) :
    CohortBegun usable (s.cohort c) (s.beginRound.cohort c) := by
  have hsf : (beforeFigures s).sampleFree
      = clampNat s.mod.config.freeFloorPm 1000 s.mgd.freeNow := by simp [State.sampleFree, freePm]
  rw [beginRound_eq, formFigures_cohort _ _ hc, hsf, beforeFigures_cohort _ hc]
  simp only [beforeFigures_keeps, Cohort.refill, Cohort.enabled, cohortAllotment]
  rw [← hu]
  constructor <;> (split_ifs <;> simp_all)

/-- A boundary recomputes membership when a span has changed, and only then (R88). -/
theorem beginRound_membership (s : State) {i : Nat} (hi : i < 512) :
    (s.beginRound.station i).cohort =
      if s.beginRound.coh.cohorts.rows.map Cohort.span = s.coh.cohorts.rows.map Cohort.span then (s.station i).cohort
      else memberOf s.beginRound.coh.cohorts.rows i := by
  rw [beginRound_eq, formFigures_station _ _ hi, beforeFigures_station,
    memberOf_congr _ _ (formFigures_spans (beforeFigures s)), formFigures_spans]
  unfold Station.refill
  by_cases h : (beforeFigures s).coh.cohorts.rows.map Cohort.span = s.coh.cohorts.rows.map Cohort.span
  · simp only [h, not_true_eq_false, and_false, if_false, if_true]
    split_ifs <;> rfl
  · simp only [h, not_false_eq_true, and_true, hi, if_true, if_false]
    split_ifs <;> rfl

/-- A round that begins is formed as RoundBegun says (R53 to R59, R72, R89). -/
theorem beginRound_begun (s : State) : RoundBegun s s.beginRound s.mgd.freeNow := by
  have hsf : (beforeFigures s).sampleFree
      = clampNat s.mod.config.freeFloorPm 1000 s.mgd.freeNow := by simp [State.sampleFree, freePm]
  constructor
  · rintro pm usable group rfl rfl rfl
    refine ⟨?_, ?_, ?_, fun i hi => beginRound_stationBegun s _ hi rfl, fun c hc => beginRound_cohortBegun s _ hc rfl⟩
    · simp only [beginRound_eq, State.formFigures, updRck_rck, hsf]
      simp [usableAirtime, beforeFigures_weightSum, State.quantaSum, poolOf, groupAllotment, beforeFigures_weightOf]
      rfl
    · simp only [beginRound_eq, State.formFigures, updRck_sel, updSel_sel, hsf]
      simp [usableAirtime, groupAllotment]
    · simp only [beginRound_eq, State.formFigures, updRck_sel, updSel_sel, hsf]
      simp [usableAirtime, groupAllotment]
  · simp [beginRound_eq, State.formFigures]
  · simp [beginRound_eq, State.formFigures]
  · intro h i hi
    rw [beginRound_membership s hi, if_pos ((spans_eq_iff _ _).mpr h)]
  · rintro ⟨c, hc, h⟩ i hi
    rw [beginRound_membership s hi, if_neg]
    intro e
    exact h ((spans_eq_iff _ _).mp e c hc)
  · simp

theorem RoundBegun.congr {s s' t t' : State} {f} (h : RoundBegun s t f) (h1 : s'.mod.config
    = s.mod.config) (h2 : s'.stt = s.stt) (h3 : s'.coh = s.coh) (h4 : s'.sel.active = s.sel.active)
  (g1 : t'.rck.figures = t.rck.figures) (g2 : t'.rck.promptUsed = t.rck.promptUsed) (g3 : t'.sel.groupAllot
      = t.sel.groupAllot) (g4 : t'.sel.groupBudget = t.sel.groupBudget) (g5 : t'.sel.groupDue
      = t.sel.groupDue) (g6 : t'.stt = t.stt) (g7 : t'.coh = t.coh) : RoundBegun s' t' f := by
  have a1 : ∀ i, s'.station i = s.station i := fun i => by simp [State.station, h2]
  have a2 : ∀ i, t'.station i = t.station i := fun i => by simp [State.station, g6]
  have a3 : ∀ i, s'.cohort i = s.cohort i := fun i => by simp [State.cohort, h3]
  have a4 : ∀ i, t'.cohort i = t.cohort i := fun i => by simp [State.cohort, g7]
  have a5 : s'.boundaryWeight = s.boundaryWeight := by simp [State.boundaryWeight, h4, a1]
  have a6 : ∀ p, s'.boundaryQuantum p
      = s.boundaryQuantum p := fun p => by funext i; simp [State.boundaryQuantum, a5, a1]
  obtain ⟨b1, b2, b3, b4, b5, b6⟩ := h
  constructor
  · simpa only [a1, a2, a3, a4, a5, a6, h1, h4, g1, g3, g4] using b1
  · rw [g2, b2]
  · rw [g5, b3]
  · simpa only [a1, a2, a3, a4] using b4
  · simpa only [a1, a2, a3, a4, g7] using b5
  · rw [g6, h2]; exact b6

/-- The closing of a round counts, places or skips its report (R72, R79, R81). -/
theorem closeRound_spec (s : State) (cfg) (hcfg : cfg = s.mod.config) :
        (cfg.reportEvery = 0 ∨ s.rck.postscaler + 1 < cfg.reportEvery →
            s.closeRound.cli = s.cli ∧ s.closeRound.rck.skipped = s.rck.skipped
                ∧ s.closeRound.rck.reportsSent = s.rck.reportsSent
            ∧ s.closeRound.rck.reportsSkipped = s.rck.reportsSkipped
            ∧ s.closeRound.rck.postscaler = (if cfg.reportEvery = 0 then s.rck.postscaler else s.rck.postscaler + 1))
        ∧ (cfg.reportEvery ≠ 0 → cfg.reportEvery ≤ s.rck.postscaler + 1 → s.cli.outbound.length + 2 ≤ 16 →
            s.closeRound.rck.postscaler = 0 ∧ s.closeRound.rck.skipped = 0
                ∧ s.closeRound.rck.reportsSkipped = s.rck.reportsSkipped
            ∧ s.closeRound.rck.reportsSent = min (s.rck.reportsSent + 1) 4294967295
            ∧ s.closeRound.cli = s.noticed (.usageReport
              { round := s.rck.round, usable := s.rck.figures.usable, freePm := s.rck.figures.freePm
                groupUsed := (s.station 0).usedRound, promptUsed := s.rck.promptUsed
                activeLength := s.rck.figures.activeLength, weightSum := s.rck.figures.weightSum
                quantaSum := s.rck.figures.quantaSum
                totalCharged := min (s.stt.stations.rows.map Station.usedRound).sum 4294967295
                skipped := s.rck.skipped
                cohorts := ((List.range 32).filter fun c => (s.cohort c).span != 0).map
                  fun c => (c, (s.cohort c).usedRound) }))
        ∧ (cfg.reportEvery ≠ 0 → cfg.reportEvery ≤ s.rck.postscaler + 1 → 16 < s.cli.outbound.length + 2 →
            s.closeRound.cli = s.cli ∧ s.closeRound.rck.postscaler = 0
                ∧ s.closeRound.rck.reportsSent = s.rck.reportsSent
            ∧ s.closeRound.rck.skipped = min (s.rck.skipped + 1) 4294967295
            ∧ s.closeRound.rck.reportsSkipped = min (s.rck.reportsSkipped + 1) 4294967295) := by
  subst hcfg
  have hco : s.cohortUsage = ((List.range 32).filter fun c => (s.cohort c).span != 0).map
                  fun c => (c, (s.cohort c).usedRound) := by
    have hz : s.coh.cohorts.rows.zipIdx = (List.range 32).map fun c => (s.cohort c, c) := by
      have hl : s.coh.cohorts.rows.length = 32 := s.coh.cohorts.size
      apply List.ext_getElem
      · simp [hl]
      · intro n h1 h2
        simp at h1
        simp [State.cohort, Table.get, List.getD_eq_getElem?_getD, h1]
    unfold State.cohortUsage
    rw [hz, List.filter_map, List.map_map]
    rfl
  refine ⟨fun h1 => ?_, fun h1 h2 h3 => ?_, fun h1 h2 h3 => ?_⟩
  · unfold State.closeRound
    rcases h1 with h1 | h1
    · simp [h1]
    · have : ¬ s.mod.config.reportEvery ≤ s.rck.postscaler + 1 := by omega
      have h0 : s.mod.config.reportEvery ≠ 0 := by omega
      simp [this, h0]
  · have hf : 2 ≤ s.outFree := by unfold State.outFree Config.controlOutbound; omega
    unfold State.closeRound
    rw [if_neg h1, if_pos h2]
    have e : (s.updRck fun r => { r with postscaler := 0 }).cohortUsage = s.cohortUsage := rfl
    rw [hco] at e
    simp [State.placeReport, hf, satAdd, pushOut_cli, State.noticed, State.usageReport, e]
  · have hf : ¬ 2 ≤ s.outFree := by unfold State.outFree Config.controlOutbound; omega
    unfold State.closeRound
    rw [if_neg h1, if_pos h2]
    simp [State.placeReport, hf, satAdd]

end Sys2Proof.Machine
end

