-- ==== Sys2Proof/Laws/Selector.lean ====
section
/-!
SUPPORT. The tests and moves of a selection run (R108 to R111) and the frames an order takes (R120).
-/

namespace Sys2Proof.Machine

theorem first_eq_some (ls : Lanes) (l : Lane) : ls.first = some l ↔ (ls.get l ≠ [] ∧ (l = .prompt
    ∨ ls.get .prompt = [] ∧ (l = .bulk ∨ ls.get .bulk = []))) := by
  obtain ⟨p, b, k⟩ := ls
  cases l <;> cases p <;> cases b <;> cases k <;> simp [Lanes.first, Lanes.get]

theorem first_isSome (ls : Lanes) : ls.first.isSome = true ↔ ls.allEmpty = false := by
  obtain ⟨p, b, k⟩ := ls
  cases p <;> cases b <;> cases k <;> simp [Lanes.first, Lanes.allEmpty]

theorem passes_iff (s : State) (b : Int) (i : Nat) : s.passes b i = true ↔ s.PassesAbove b i := by
  unfold State.passes State.PassesAbove State.cohortGate
  simp only [Bool.and_eq_true, first_isSome, decide_eq_true_eq, Bool.not_eq_true']
  constructor
  · rintro ⟨⟨⟨h1, h2⟩, h3⟩, h4⟩
    refine ⟨h1, h2, fun c hc => ?_, h4⟩
    rw [hc] at h3; simpa using h3
  · rintro ⟨h1, h2, h3, h4⟩
    refine ⟨⟨⟨h1, h2⟩, ?_⟩, h4⟩
    split
    · rfl
    · rename_i c hc; simpa using h3 c hc

theorem find_first {α} {p : α → Bool} {pre post : List α} {i : α} (h1 : ∀ j ∈ pre, p j = false) (h2 : p i = true) :
    (pre ++ i :: post).find? p = some i := by
  rw [List.find?_append]
  have : pre.find? p = none := by simp only [List.find?_eq_none]; intro j hj; simp [h1 j hj]
  simp [this, h2]

theorem rotatePast_split {pre post : List Nat} {i : Nat} (h : (pre ++ i :: post).Nodup) :
    rotatePast (pre ++ i :: post) i = post ++ pre ++ [i] := by
  have hi : ∀ j ∈ pre, j ≠ i := by
    rintro j hj rfl
    simp [List.nodup_append] at h
    exact (h.2.2 j hj).1 rfl
  have hi2 : ∀ j ∈ post, j ≠ i := by
    rintro j hj rfl
    simp [List.nodup_append] at h
    exact h.2.1.1 hj
  unfold rotatePast
  have h1 : (pre ++ i :: post).dropWhile (· != i) = i :: post := by
    rw [List.dropWhile_append_of_pos (by intro j hj; simpa using hi j hj)]; simp
  have h2 : (pre ++ i :: post).takeWhile (· != i) = pre := by
    rw [List.takeWhile_append_of_pos (by intro j hj; simpa using hi j hj)]; simp
  have h3 : (pre ++ i :: post).filter (· == i) = [i] := by
    rw [List.filter_append]
    have a : pre.filter (· == i) = [] := by simp only [List.filter_eq_nil_iff]; intro j hj; simpa using hi j hj
    have b : post.filter (· == i) = [] := by simp only [List.filter_eq_nil_iff]; intro j hj; simpa using hi2 j hj
    simp [a, b]
  rw [h1, h2, h3]; simp

/-- The candidates that join an order (R120). -/
theorem extendOrder_spec (cfg : Configuration) (rate limit : Nat) (taken rest : List Frame) (ht : 1 ≤ taken.length)
   (hI : 1 < taken.length → taken.length ≤ limit ∧ estimate cfg rate taken ≤ cfg.orderMaxUs
       ∧ ∀ f ∈ taken, f.noAgg = false) :
    ∃ k, extendOrder cfg rate limit taken rest = taken ++ rest.take k ∧ k ≤ rest.length
      ∧ (1 < taken.length + k → taken.length + k ≤ limit
          ∧ estimate cfg rate (taken ++ rest.take k) ≤ cfg.orderMaxUs ∧ ∀ f ∈ taken ++ rest.take k, f.noAgg = false)
      ∧ (k = rest.length ∨ limit ≤ taken.length + k
          ∨ cfg.orderMaxUs < estimate cfg rate (taken ++ rest.take (k+1))
          ∨ ∃ f ∈ taken ++ rest.take (k+1), f.noAgg = true) := by
  induction rest generalizing taken with
  | nil => exact ⟨0, by simp [extendOrder], by simp, by simpa using hI, by simp⟩
  | cons f rest ih =>
    unfold extendOrder
    split
    · rename_i h
      obtain ⟨k, h1, h2, h3, h4⟩ := ih (taken ++ [f]) (by simp) (by
        intro _
        refine ⟨by simp; omega, h.2.1, ?_⟩
        have := h.2.2
        simp only [List.all_eq_true] at this
        intro g hg; simpa using this g hg)
      refine ⟨k+1, by simpa using h1, by simp; omega, ?_, ?_⟩
      · intro _
        have := h3 (by simp; omega)
        simpa [Nat.add_assoc, Nat.add_comm 1 k] using this
      · simpa [Nat.add_assoc, Nat.add_comm 1 k] using h4
    · rename_i h
      refine ⟨0, by simp, by simp, by simpa using hI, ?_⟩
      right
      by_cases a : taken.length < limit
      · by_cases b : estimate cfg rate (taken ++ [f]) ≤ cfg.orderMaxUs
        · right; right
          have c : ¬ (taken ++ [f]).all (fun g => !g.noAgg) = true := fun c => h ⟨a, b, c⟩
          simp only [List.all_eq_true, not_forall] at c
          obtain ⟨g, hg, c⟩ := c
          exact ⟨g, by simpa using hg, by simpa using c⟩
        · right; left; simpa using b
      · left; omega

end Sys2Proof.Machine
end

