-- ==== Sys2Proof/Laws/Settle.lean ====
section
/-!
SUPPORT. The chain of builds ends (R104, R105, R121): each build behind the first issues an order, so the window closes
it, and a settlement may start one build later.
-/

namespace Sys2Proof.Machine

/-- Every station on the prompt list has something in its PROMPT lane (R99). -/
def State.PromptHeld (s : State) : Prop :=
  s.sel.prompt.Nodup ∧ ∀ i ∈ s.sel.prompt, i ≠ 0 ∧ (s.station i).state = .backlogged ∧ s.lane i .prompt ≠ []

/-- The chosen lane, if a choice waits, is not empty, and the window has room for its order. -/
def State.ChoiceHeld (s : State) : Prop :=
  ∀ c, s.sel.choice = some c → s.lane c.station c.lane ≠ [] ∧ s.ord.outstanding.length < s.mod.config.window

/-- No order is taken from an empty lane, and one is from any other (R120). -/
theorem aggregate_eq_nil (cfg : Configuration) (rate limit : Nat) (q : List Frame) :
    aggregate cfg rate limit q = [] ↔ q = [] := by
  cases q with
  | nil => simp [aggregate]
  | cons f rest =>
    obtain ⟨k, he, _⟩ := extendOrder_spec cfg rate limit [f] rest (by simp) (by simp)
    simp [aggregate, he]

/-- A take keeps the prompt list's lanes filled (R3, R31, R99). -/
theorem takeFrames_promptHeld {s : State} {i : Nat} {l : Lane} (n : Nat) (hl : s.lane i l ≠ []) (h : s.PromptHeld) :
    (s.takeFrames i l n).PromptHeld := by
  have hi : i < 512 := lt_of_lane_ne_nil hl
  unfold State.takeFrames
  dsimp only
  set u := (s.setLane i l ((s.lane i l).drop n)).updFpl fun p =>
    { p with expiry := leaveExpiry p.expiry ((s.lane i l).take n) } with hu
  have u1 : ∀ j k, u.lane j k = if (j, k) = (i, l) then (s.lane i l).drop n else s.lane j k := by
    intro j k
    have : u.lane j k = (s.setLane i l ((s.lane i l).drop n)).lane j k := rfl
    rw [this, setLane_lane]
    by_cases e : (j, k) = (i, l)
    · have : j = i := congrArg Prod.fst e
      simp [this, hi, Config.stationCount]
    · simp only [e, false_and, if_false]
  have u2 : ∀ j, u.station j = s.station j := fun _ => rfl
  have u3 : u.sel = s.sel := rfl
  clear_value u
  obtain ⟨hn, hm⟩ := h
  by_cases hd : (s.lane i l).drop n = []
  · rw [if_pos (by simpa using hd)]
    refine ⟨?_, fun j hj => ?_⟩
    · rw [laneEmpty_prompt, u3]; split
      · exact hn.erase _
      · exact hn
    · have hjs : j ∈ s.sel.prompt ∧ ¬ (j = i ∧ l = .prompt) := by
        rw [laneEmpty_prompt, u3, u2] at hj
        split at hj
        · exact ⟨List.mem_of_mem_erase hj, fun e => (hn.mem_erase_iff.mp hj).1 e.1⟩
        · rename_i e
          exact ⟨hj, fun ⟨a, b⟩ => e ⟨a ▸ (hm j hj).1, a ▸ (hm j hj).2.1, b⟩⟩
      obtain ⟨h1, h2, h3⟩ := hm j hjs.1
      have hlane : u.lane j .prompt = s.lane j .prompt := by
        rw [u1, if_neg]
        intro e
        simp only [Prod.mk.injEq] at e
        exact hjs.2 ⟨e.1, e.2.symm⟩
      refine ⟨h1, ?_, by simpa [hlane] using h3⟩
      rw [laneEmpty_station _ _ _ _ hi, if_neg, u2]
      · exact h2
      · rintro ⟨rfl, _, _, e⟩
        exact h3 (hlane ▸ (Lanes.allEmpty_iff _).mp e .prompt)
  · rw [if_neg (by simpa using hd)]
    refine ⟨by rw [u3]; exact hn, fun j hj => ?_⟩
    rw [u3] at hj
    obtain ⟨h1, h2, h3⟩ := hm j hj
    refine ⟨h1, by rw [u2]; exact h2, ?_⟩
    rw [u1]
    split
    · exact hd
    · exact h3

/-- What PromptHeld reads. -/
theorem State.PromptHeld.congr {s t : State} (h : s.PromptHeld) (h1 : t.sel.prompt = s.sel.prompt)
    (h2 : ∀ j, (t.station j).state = (s.station j).state) (h3 : ∀ j, t.lane j .prompt = s.lane j .prompt) :
    t.PromptHeld := by
  obtain ⟨hn, hm⟩ := h
  refine ⟨h1 ▸ hn, fun i hi => ?_⟩
  rw [h2, h3]
  exact hm i (h1 ▸ hi)

/-- An issue keeps the prompt list's lanes filled and lengthens the outstanding list by one (R122). -/
theorem issueOrder_promptHeld {s : State} {c : Choice} (fs : List Frame) (hl : s.lane c.station c.lane ≠ [])
    (h : s.PromptHeld) :
    (s.issueOrder c fs).PromptHeld
      ∧ (s.issueOrder c fs).ord.outstanding.length = s.ord.outstanding.length + 1 := by
  have hs : ∀ (t : State) (i : Nat) (f : Station → Station) (j : Nat), (∀ x, (f x).state = x.state) →
      ((t.updStation i f).station j).state = (t.station j).state := by
    intro t i f j hf
    rw [updStation_station]; split <;> simp [hf]
  unfold State.issueOrder
  refine ⟨(takeFrames_promptHeld fs.length hl h).congr ?_ ?_ ?_, ?_⟩
  · simp
  · intro j
    simp only [serveOrders_keeps, State.countOrd, updOrd_station, State.raiseInFlight]
    refine (hs _ _ (fun x => { x with inFlight := x.inFlight + 1 }) _ fun _ => rfl).trans ?_
    simp only [chargeSelector_keeps, chargeCohort_keeps, State.chargeStation]
    exact hs _ _ (fun x => { x with balance := _, usedRound := _ }) _ fun _ => rfl
  · simp
  · have hlen : ∀ t : State, t.serveOrders.ord.outstanding.length = t.ord.outstanding.length := fun t => by
      simpa using congrArg List.length (serveOrders_spec t).1
    simp [hlen, State.countOrd]

/-- A run hands on a choice whose lane is not empty, while the window has room (R104, R106 to R111). -/
theorem selectionRun_choiceHeld {s : State} (hc : s.sel.choice = none) (h : s.PromptHeld) :
    s.selectionRun.PromptHeld ∧ s.selectionRun.ChoiceHeld := by
  unfold State.selectionRun
  split
  · rename_i ho
    cases hp : s.pick with
    | none => exact ⟨h, fun c e => by simp [hc] at e⟩
    | some p =>
      have key : s.lane p.choice.station p.choice.lane ≠ []
          ∧ (p.sel.prompt = s.sel.prompt ∨ ∃ i ∈ s.sel.prompt, p.sel.prompt = s.sel.prompt.erase i ++ [i]) := by
        have hscan : ∀ b k, s.scan b k = some p → s.lane p.choice.station p.choice.lane ≠ []
            ∧ p.sel.prompt = s.sel.prompt := by
          intro b k e
          unfold State.scan at e
          simp only [Option.bind_eq_some_iff, Option.map_eq_some_iff] at e
          obtain ⟨i, _, l, e, rfl⟩ := e
          exact ⟨((first_eq_some _ _).mp e).1, rfl⟩
        simp only [State.pick, Option.orElse_eq_orElse, Option.orElse_eq_or, Option.or_eq_some_iff] at hp
        rcases hp with e | ⟨_, e | ⟨_, e | ⟨_, e | ⟨_, e⟩⟩⟩⟩
        · unfold State.groupStep at e
          split at e
          · rename_i g
            simp only [Option.some.injEq] at e
            subst e
            simp only [Bool.and_eq_true, Bool.not_eq_true', List.isEmpty_eq_false_iff] at g
            exact ⟨g.1.2, Or.inl rfl⟩
          · simp at e
        · unfold State.pollStep at e
          split at e
          · simp at e
          · simp only [Option.map_eq_some_iff] at e
            obtain ⟨l, e, rfl⟩ := e
            exact ⟨((first_eq_some _ _).mp e).1, Or.inl rfl⟩
        · unfold State.promptStep at e
          split at e
          · simp only [Option.map_eq_some_iff] at e
            obtain ⟨i, e, rfl⟩ := e
            have := List.mem_of_find?_eq_some e
            exact ⟨(h.2 i this).2.2, Or.inr ⟨i, this, rfl⟩⟩
          · simp at e
        · exact ⟨(hscan _ _ e).1, Or.inl (hscan _ _ e).2⟩
        · unfold State.spillPass at e
          split at e
          · exact ⟨(hscan _ _ e).1, Or.inl (hscan _ _ e).2⟩
          · simp at e
      refine ⟨?_, fun c e => ?_⟩
      · rcases key.2 with e | ⟨i, hi, e⟩
        · exact h.congr e (fun _ => rfl) fun _ => rfl
        · have hm : ∀ j, j ∈ p.sel.prompt ↔ j ∈ s.sel.prompt := by
            intro j
            rw [e, List.mem_append, h.1.mem_erase_iff, List.mem_singleton]
            by_cases hj : j = i
            · simp [hj, hi]
            · simp [hj]
          refine ⟨?_, fun j hj => h.2 j ((hm j).mp hj)⟩
          show p.sel.prompt.Nodup
          rw [e]
          refine List.Nodup.append (h.1.erase _) (by simp) ?_
          simp [h.1.mem_erase_iff]
      · have e' : p.choice = c := by simpa using e
        subst e'
        refine ⟨key.1, ?_⟩
        have := ho
        simp only [State.selectionOpen, Bool.and_eq_true, decide_eq_true_eq] at this
        exact this.2
  · exact ⟨h, fun c e => by simp [hc] at e⟩

/-- A build of a choice whose lane is not empty (R105, R106). -/
theorem buildOrder_choiceHeld {s : State} (h : s.PromptHeld) (hc : s.ChoiceHeld) (hs : s.sel.choice ≠ none) :
    s.buildOrder.PromptHeld ∧ s.buildOrder.ChoiceHeld ∧ s.buildOrder.mod.config = s.mod.config
      ∧ s.buildOrder.ord.outstanding.length = s.ord.outstanding.length + 1 := by
  obtain ⟨c, hcs⟩ := Option.ne_none_iff_exists'.mp hs
  have hl := (hc c hcs).1
  set t := s.updSel fun e => { e with choice := none } with ht
  have htp : t.PromptHeld := h.congr rfl (fun _ => rfl) fun _ => rfl
  have hb : ∃ fs, t.buildChoice c = t.issueOrder c fs := by
    unfold State.buildChoice
    split
    · rename_i e
      exact absurd ((aggregate_eq_nil _ _ _ _).mp e) hl
    · exact ⟨_, rfl⟩
  obtain ⟨fs, hb⟩ := hb
  have he : s.buildOrder = (t.issueOrder c fs).selectionRun := by
    unfold State.buildOrder
    rw [hcs]
    dsimp only
    rw [hb]
  obtain ⟨hi, hlen⟩ := issueOrder_promptHeld (s := t) (c := c) fs hl htp
  have hnone : (t.issueOrder c fs).sel.choice = none := by
    unfold State.issueOrder; simp [State.countOrd, ht]
  have hcfg : (t.issueOrder c fs).mod.config = s.mod.config := by
    unfold State.issueOrder; simp [State.countOrd, ht]
  obtain ⟨h1, h2⟩ := selectionRun_choiceHeld hnone hi
  rw [he]
  exact ⟨h1, h2, by rw [(selectionRun_keeps _).2.2.2.2.2.2.2.2.2.2.2.2.2.1]; exact hcfg,
    by rw [(selectionRun_keeps _).2.2.2.2.2.2.2.2.2.2.2.1]; exact hlen⟩

/-- As many builds as the window has places end the chain. -/
theorem buildOrders_ends (n : Nat) {s : State} (h : s.PromptHeld) (hc : s.ChoiceHeld)
    (hn : s.mod.config.window ≤ s.ord.outstanding.length + n) : (State.buildOrders n s).sel.choice = none := by
  induction n generalizing s with
  | zero =>
    show s.sel.choice = none
    by_contra e
    obtain ⟨c, hcs⟩ := Option.ne_none_iff_exists'.mp e
    have := (hc c hcs).2
    omega
  | succ n ih =>
    unfold State.buildOrders
    split
    · rename_i e
      obtain ⟨h1, h2, h3, h4⟩ := buildOrder_choiceHeld h hc (by intro e2; simp [e2] at e)
      exact ih h1 h2 (by rw [h3, h4]; omega)
    · rename_i e
      simpa using e

/-- One build more changes nothing when none waits. -/
theorem buildOrders_succ (n : Nat) (s : State) (h : (State.buildOrders n s).sel.choice = none) :
    State.buildOrders (n + 1) s = State.buildOrders n s := by
  induction n generalizing s with
  | zero =>
    have : s.sel.choice = none := h
    simp [State.buildOrders, this]
  | succ n ih =>
    unfold State.buildOrders at h ⊢
    split
    · rename_i e
      rw [if_pos e] at h
      exact ih _ h
    · rfl

/-- A settlement is a build and the settlement of what it leaves, where the first build issues an order or not (R121). -/
theorem settle_buildOrder {s : State} (hs : s.sel.choice ≠ none) (h : s.PromptHeld) (hw : s.mod.config.window ≤ 7) :
    s.settle = s.buildOrder.settle := by
  obtain ⟨c, hcs⟩ := Option.ne_none_iff_exists'.mp hs
  have hu : s.buildOrder.PromptHeld ∧ s.buildOrder.ChoiceHeld ∧ s.buildOrder.mod.config = s.mod.config := by
    by_cases hl : s.lane c.station c.lane = []
    · have he : s.buildOrder = ((s.updSel fun e => { e with choice := none }).emptyChoice c).selectionRun := by
        unfold State.buildOrder
        rw [hcs]
        dsimp only
        unfold State.buildChoice
        have : State.lane (s.updSel fun e => { e with choice := none }) c.station c.lane = [] := hl
        rw [this]
        rfl
      have hp : ((s.updSel fun e => { e with choice := none }).emptyChoice c).PromptHeld :=
        h.congr (by simp) (by simp) (by simp)
      rw [he]
      exact ⟨(selectionRun_choiceHeld (by simp) hp).1, (selectionRun_choiceHeld (by simp) hp).2, by simp⟩
    · have hb : ∃ fs, (s.updSel fun e => { e with choice := none }).buildChoice c
          = (s.updSel fun e => { e with choice := none }).issueOrder c fs := by
        unfold State.buildChoice
        split
        · rename_i e
          exact absurd ((aggregate_eq_nil _ _ _ _).mp e) hl
        · exact ⟨_, rfl⟩
      obtain ⟨fs, hb⟩ := hb
      have he : s.buildOrder = ((s.updSel fun e => { e with choice := none }).issueOrder c fs).selectionRun := by
        unfold State.buildOrder
        rw [hcs]
        dsimp only
        rw [hb]
      have hi := (issueOrder_promptHeld (s := s.updSel fun e => { e with choice := none }) (c := c) fs hl
        (h.congr rfl (fun _ => rfl) fun _ => rfl)).1
      have hnone : ((s.updSel fun e => { e with choice := none }).issueOrder c fs).sel.choice = none := by
        unfold State.issueOrder; simp [State.countOrd]
      obtain ⟨h1, h2⟩ := selectionRun_choiceHeld hnone hi
      rw [he]
      exact ⟨h1, h2, by unfold State.issueOrder; simp [State.countOrd]⟩
  obtain ⟨h1, h2, h3⟩ := hu
  unfold State.settle
  have e1 : State.buildOrders 8 s = State.buildOrders 7 s.buildOrder := by
    show (if s.sel.choice.isSome then _ else _) = _
    rw [hcs]; rfl
  rw [e1, buildOrders_succ 7 _ (buildOrders_ends 7 h1 h2 (by rw [h3]; omega))]

end Sys2Proof.Machine
end

