-- ==== Sys2Proof/Laws/Spans.lean ====
section
/-!
SUPPORT. Cohort spans: the decoded range (R85) and the cohort an index belongs to (R88).
-/

namespace Sys2Proof.Machine

/-- The lowest set bit of a span, at position 0 to 9 (R85). -/
theorem lowestBit_eq_some (span p : Nat) :
    lowestBit span = some p ↔
      p < 10 ∧ span.testBit p = true ∧ ∀ q, q < p → span.testBit q = false := by
  unfold lowestBit
  rw [List.find?_range_eq_some]
  simp only [Bool.not_eq_true', List.mem_range]
  tauto

/-- The decoded range of a span with its lowest set bit at `p` (R85). -/
theorem spanRange_of_lowest {span p : Nat} (hp : p < 10) (hb : span.testBit p = true)
    (hl : ∀ q, q < p → span.testBit q = false) : spanRange span = some (span - 2 ^ p, 2 ^ p) := by
  rw [spanRange, (lowestBit_eq_some span p).mpr ⟨hp, hb, hl⟩]
  rfl

/-- `spanHolds` is the containment of R85. -/
theorem spanHolds_iff (span i : Nat) : spanHolds span i = true ↔ InSpan span i := by
  constructor
  · intro h
    unfold spanHolds spanRange at h
    cases hb : lowestBit span with
    | none => simp [hb] at h
    | some p =>
      obtain ⟨h1, h2, h3⟩ := (lowestBit_eq_some span p).mp hb
      simp only [hb, Option.map_some, Bool.and_eq_true, decide_eq_true_eq] at h
      exact ⟨p, h1, h2, h3, h⟩
  · rintro ⟨p, h1, h2, h3, h4⟩
    simpa [spanHolds, spanRange_of_lowest h1 h2 h3] using h4

/-- A span of 0 names no range (R85). -/
theorem not_inSpan_zero (i : Nat) : ¬ InSpan 0 i := by
  rintro ⟨p, _, h, _⟩
  simp at h

/-- A client station belongs to the lowest-numbered cohort whose range holds it; index 0 belongs to none (R88). -/
theorem memberOf_eq_some (s : State) (i c : Nat) :
    memberOf s.coh.cohorts.rows i = some c ↔
      i ≠ 0 ∧ c < 32 ∧ InSpan (s.cohort c).span i ∧ ∀ b, b < c → ¬ InSpan (s.cohort b).span i := by
  have hp : ∀ x : Cohort, (x.enabled && spanHolds x.span i) = true ↔ InSpan x.span i := by
    intro x
    rw [Bool.and_eq_true, spanHolds_iff]
    refine ⟨And.right, fun h => ⟨?_, h⟩⟩
    unfold Cohort.enabled
    rw [bne_iff_ne]
    intro e
    exact not_inSpan_zero i (e ▸ h)
  have hs : s.coh.cohorts.rows.length = 32 := s.coh.cohorts.size
  have hg : ∀ b (h : b < s.coh.cohorts.rows.length), s.coh.cohorts.rows[b] = s.cohort b := by
    intro b h
    rw [State.cohort, Table.get, List.getD_eq_getElem _ _ h]
  unfold memberOf
  by_cases h0 : i = 0
  · simp [h0]
  · rw [if_neg h0, List.findIdx?_eq_some_iff_getElem]
    constructor
    · rintro ⟨h, h1, h2⟩
      refine ⟨h0, by omega, ?_, fun b hb => ?_⟩
      · rw [← hg c h]; exact (hp _).mp h1
      · rw [← hg b (by omega)]
        intro e
        exact absurd ((hp _).mpr e) (h2 b hb)
    · rintro ⟨_, h, h1, h2⟩
      refine ⟨by omega, ?_, fun b hb => ?_⟩
      · rw [hg]; exact (hp _).mpr h1
      · rw [hg]
        intro e
        exact h2 b hb ((hp _).mp e)

end Sys2Proof.Machine
end

