-- ==== Sys2Proof/Laws/Wire.lean ====
section
/-!
SUPPORT. Field and record lengths on the wire (R189, R191 to R194).
-/

namespace Sys2Proof.Machine

theorem leNat_leBytes (size n : Nat) : leNat (leBytes size n) = n % 256 ^ size := by
  induction size generalizing n with
  | zero => simp [leBytes, leNat, Nat.mod_one]
  | succ k ih =>
    simp only [leBytes, leNat, ih, BitVec.toNat_ofNat]
    rw [show 256 ^ (k + 1) = 256 * 256 ^ k by ring, Nat.mod_mul]

theorem leBytes_length (n k) : (leBytes n k).length = n := by
  induction n generalizing k with
  | zero => rfl
  | succ n ih => simp [leBytes, ih]

theorem signed32_length (x) : (signed32 x).length = 4 := leBytes_length _ _

theorem stationRow_length (r : StationRow) : r.bytes.length = 44 := by
  simp [StationRow.bytes, leBytes_length, signed32_length]

theorem cohortRow_length (r : CohortRow) : r.bytes.length = 26 := by
  simp [CohortRow.bytes, leBytes_length, signed32_length]

theorem outRow_length (r : OutstandingRow) : r.bytes.length = 24 := by
  simp [OutstandingRow.bytes, leBytes_length]

theorem activeRow_length (r : ActiveRow) : r.bytes.length = 4 := by
  simp [ActiveRow.bytes, leBytes_length]

theorem flatMap_length {α} (f : α → List Byte) (n) (h : ∀ a, (f a).length = n) (l : List α) : (l.flatMap f).length
    = n * l.length := by
  induction l with
  | nil => simp
  | cons a l ih => simp [h, ih]; ring

end Sys2Proof.Machine
end

