-- ==== Sys2Proof/WellFormed.lean ====
section
/-!
DEFINITION. Which commands are well formed. Every value of an operand is one that the links can carry (any byte
string of any length, any number of clocked bytes, either level of MAC_RDY), and the rules say what the part does
with each (R173, R174, R175, R185, R190), so no command is shut out here: what a record holds is checked by the
meanings, where the manual puts those checks.
-/

namespace Sys2Proof

/-- Every command can reach the part (log entry 4). -/
def Instr.wellFormed (i : Instr) : Bool :=
  match i with
  | .writeTransaction _ | .readTransaction _ | .idleTransaction _ => true
  | .unknownType | .configure | .start | .stop | .abort | .reset | .quiet | .resume | .status => true
  | .admitStation | .release | .setWeight | .hold | .enqueue | .flush | .setCohort | .query => true
  | .tokenReturn | .alert | .attnPulse => true
  | .recordStart _ | .recordEnd _ => true
  | .txOutcome | .mediumReport | .mediumAlert | .mediumClear | .doze | .wake | .poll => true
  | .radioRecordSent | .cancelAll | .linkNoteHanded | .txOrderPlaced => true
  | .frameExpiry | .orderTimeout | .blankingExpiry | .roundBoundary | .promptBoundary => true
  | .orderBuild | .pinReset | .resetNRelease => true
  | .directionByte _ | .radioRecordBegin _ => true

end Sys2Proof
end

