-- ==== Sys2Proof/Tests/Slice0.lean ====
section
/-!
SUPPORT. Tests: that every command term is taken, the worked figures of the manual, and for every obligation with
hypotheses a state and operands that meet them, one witness for each of its clauses (named `test_meets_<obligation>`).
-/

namespace Sys2Proof.Machine

/-! ## Small changes of a state -/

/-- `s` with one host record waiting. -/
def State.withHost (s : State) (typ : Byte) (body : List Byte) : State :=
  { s with cli := { s.cli with inbound := [⟨typ, 7, body, false⟩] } }

/-- `s` with one MAC record waiting. -/
def State.withMac (s : State) (r : MacRecord) : State :=
  { s with rli := { s.rli with inbound := [r] } }

/-- `s` with `n` records in the control outbound queue. -/
def State.withOut (s : State) (n : Nat) : State :=
  { s with cli := { s.cli with outbound := List.replicate n (.reject 0) } }

/-- `s` with `n` records in the radio outbound queue. -/
def State.withRadio (s : State) (n : Nat) : State :=
  { s with rli := { s.rli with outbound := List.replicate n .cancelAll } }

/-- `s` with station `i` in state `x`, rate 240, cap 4,000. -/
def State.withStation (s : State) (i : Nat) (x : StationState) (inFlight : Nat) : State :=
  s.updStation i fun y => { y with state := x, weight := 1, rate := 240, cap := 4000, inFlight := inFlight }

/-- `s` with these orders outstanding. -/
def State.withOrders (s : State) (os : List Order) : State :=
  { s with ord := { s.ord with outstanding := os } }

/-- `s` with a choice waiting for its build. -/
def State.withChoice (s : State) (c : Choice) : State :=
  { s with sel := { s.sel with choice := some c } }

/-- `s` inside a transaction. -/
def State.inside (s : State) (t : Transaction) : State :=
  { s with cli := { s.cli with transaction := some t } }

/-- `s` with one frame on the return list. -/
def State.withReturn (s : State) (f : Frame) : State :=
  s.updFpl fun p => { p with returnList := [⟨f, .delivered⟩], freeEntries := 4095 }

/-- `s` with a record arriving on RL_RX. -/
def State.arriving (s : State) (a : Arrival) : State :=
  { s with rli := { s.rli with arrival := a } }

/-- `s` with blanking running until time 2000. -/
def State.blanked (s : State) : State :=
  { s with mgd := { s.mgd with blanking := some 2000 } }

/-- `s` at device time `t`. -/
def State.atTime (s : State) (t : Time) : State :=
  { s with rck := { s.rck with deviceTime := t } }

end Sys2Proof.Machine

namespace Sys2Proof.Tests

set_option Elab.async false

open Sys2Proof Sys2Proof.Machine

/-! ## Small states -/

/-- The part in mode `m`: configuration valid outside HALTED, device time 1000, boundaries ahead. -/
def part (m : Mode) : State :=
  { State.reset with
    mod := { Mod.pinReset with mode := m, configValid := m != .halted }
    rck := { Rck.pinReset with
      deviceTime := 1000, timeRunning := m != .halted
      clocksRunning := m == .running || m == .quiet || m == .draining
      nextRoundAt := 51000, nextPromptAt := 11000 } }

/-- A record of the host with tag 7, whole. -/
def record (typ : Byte) (body : List Byte) : HostRecord := ⟨typ, 7, body, false⟩

/-- A frame of station `i` of this length. -/
def frame (i : Nat) (l : Lane) (length sequence : Nat) : Frame where
  token := 0x1001
  station := i
  lane := l
  length := length
  deadline := none
  noAgg := false
  requeues := 0
  sequence := sequence

/-- An order of these frames, issued at time 900 in round 0. -/
def order (id : OrderId) (i : Nat) (k : Kind) (frames : List Frame) : Order where
  id := id
  station := i
  lane := .bulk
  kind := k
  frames := frames
  est := 332
  issueTime := 900
  deadline := 20900
  cohort := none
  round := 0
  promptPeriod := 0
  sent := .placed

/-- An outcome of order 37 that marks the first and third frame of three. -/
def outcome : Outcome := ⟨37, 2, 300, 300, 3, 5⟩

/-! ## Commands are well formed -/

theorem test_every_command_is_well_formed (i : Instr) : i.wellFormed = true := by
  cases i <;> rfl

theorem test_no_word_spells_a_command (s : State) : s.withFetchWord 8 0 = s := rfl

/-! ## The worked figures of the manual -/

/-- Chapter 3's configuration: overhead 80, 4 µs a subframe. -/
abbrev cfg : Configuration := .default

theorem test_estimates_of_R120 :
    estimate cfg 240 [frame 1 .bulk 1500 0] = 184
      ∧ estimate cfg 240 [frame 1 .bulk 1500 0, frame 1 .bulk 1500 1] = 288
      ∧ estimate cfg 240 [frame 1 .bulk 1500 0, frame 1 .bulk 1500 1, frame 1 .bulk 600 2] = 332 := by
  decide +kernel

theorem test_aggregate_of_R120 :
    aggregate cfg 240 16 [frame 1 .bulk 1500 0, frame 1 .bulk 1500 1, frame 1 .bulk 600 2,
        { frame 1 .bulk 1500 3 with noAgg := true }]
      = [frame 1 .bulk 1500 0, frame 1 .bulk 1500 1, frame 1 .bulk 600 2] := by
  decide +kernel

theorem test_saturated_estimate_of_R50 : estimate cfg 2 [frame 1 .bulk 12000 0] = 65535 := by decide +kernel

theorem test_rates_of_R51 : blendRate 240 300 = 255 ∧ blendRate 255 150 = 229 := by decide

theorem test_cohort_allotments_of_R59 : cohortAllotment 32000 200 = 6400 ∧ cohortAllotment 12500 200 = 2500 := by
  decide

theorem test_prompt_allotment_of_R60 : promptAllotment cfg 640 = 960 := by decide

theorem test_round_figures : usableAirtime cfg 700 = 35000 ∧ groupAllotment cfg 35000 = 1750
    ∧ poolOf cfg 35000 = 33250 := by decide

theorem test_deadline_wrap_of_R69 :
    deadlineAfter 4294967000 1000 = 704 ∧ passed 4294967200 704 = false ∧ passed 704 704 = true := by decide

/-- Chapter 5's two cohorts, over 96..103 and over 0..127. -/
abbrev twoCohorts : List Cohort := [{ Cohort.pinReset with span := 104 }, { Cohort.pinReset with span := 128 }]

theorem test_membership_of_R88 :
    memberOf twoCohorts 100 = some 0 ∧ memberOf twoCohorts 50 = some 1 ∧ memberOf twoCohorts 200 = none
      ∧ memberOf twoCohorts 0 = none := by
  decide +kernel

theorem test_ids_of_R119 :
    ({ Ord.pinReset with nextId := 0, quarantine := [0, 1], outstanding := [order 2 1 .fair []] } : Ord).allocate = 3 := by
  decide +kernel

theorem test_received_record :
    receivedRecord [0x08, 0x05, 0x00, 0x00] = some ⟨0x08, 0x05, [], false⟩
      ∧ receivedRecord [0x11, 0x05, 0x02, 0x00, 0x01] = some ⟨0x11, 0x05, [0x01], true⟩
      ∧ receivedRecord [0x08, 0x05, 0x00] = none := by decide +kernel

/-! ## Steps and RESET_N -/

theorem test_meets_StepTakesTheFrontCommand :
    ({ State.reset with pending := [.status] } : State).pending = .status :: []
      ∧ ({ part .ready with mod := { (part .ready).mod with pendingAlert := true } } : State).ownEvent = some .alert
      ∧ (part .ready).ownEvent = none ∧ (part .ready).rck.timeRunning = true ∧ (part .ready).pending = []
      ∧ State.reset.ownEvent = none ∧ State.reset.rck.timeRunning = false := by decide +kernel

theorem test_meets_PinResetClearsThePart : (State.pinResetValues true).resetN = true := rfl

theorem test_filler_of_R187 (n : Nat) :
    exec (.readTransaction n) State.reset
      = .next { State.reset with cli := { State.reset.cli with sdo := Config.filler :: List.replicate n Config.filler } } := by
  simp [exec, execReadTransaction, State.whenSelected, State.endRead, State.returnFiller, driven, State.updCli,
    State.reset, State.pinResetValues, Cli.pinReset]

/-! ## Control Link -/

theorem test_meets_DirectionByteDecidesTheTransaction :
    State.reset.resetN = false ∧ State.reset.cli.transaction = none
      ∧ (State.inside .reset .idle).cli.transaction ≠ none := by decide +kernel

theorem test_meets_WriteTransactionReceivesARecord :
    (State.inside .reset (.write false)).cli.transaction = some (.write false)
      ∧ (State.inside .reset (.write true)).cli.transaction = some (.write true)
      ∧ (∀ ready, (State.inside .reset .idle).cli.transaction ≠ some (.write ready))
      ∧ (State.inside .reset .idle).cli.transaction ≠ none ∧ State.reset.cli.transaction = none := by
  refine ⟨rfl, rfl, ?_, ?_, rfl⟩ <;> decide +kernel

theorem test_meets_ReadAndIdleTransactionsEnd :
    (State.inside .reset (.read (some (.reject 0)))).cli.transaction = some (.read (some (.reject 0)))
      ∧ (State.inside .reset (.read none)).cli.transaction = some (.read none)
      ∧ (State.inside .reset .idle).cli.transaction = some .idle
      ∧ (∀ r, (State.inside .reset .idle).cli.transaction ≠ some (.read r))
      ∧ (State.inside .reset (.write true)).cli.transaction ≠ some .idle
      ∧ (State.inside .reset (.write true)).cli.transaction ≠ none ∧ State.reset.cli.transaction = none := by
  refine ⟨rfl, rfl, rfl, (fun r h => by cases h), ?_, ?_, rfl⟩ <;> decide +kernel

theorem test_meets_CliChecksComeFirst :
    (State.withHost .reset 0x09 []).cli.inbound = [record 0x09 []] ∧ commandOf 0x09 = none
      ∧ commandOf 0x11 = some .release ∧ bodyLengthOk .release [1] = false ∧ bodyLengthOk .release [1, 0] = true
      ∧ State.reset.sel.choice = none ∧ (State.withOut .reset 15).cli.outbound.length < 16 := by decide +kernel

theorem test_meets_EveryCommandIsAnsweredOnce :
    ((State.withHost .reset 0x08 []).withOut 15).cli.outbound.length < 16 ∧ commandOf 0x08 = some .status
      ∧ 16 ≤ ((State.withHost .reset 0x08 []).withOut 16).cli.outbound.length
      ∧ dispatchEvent 0x08 ≠ dispatchEvent 0x02 := by decide +kernel

theorem test_meets_CommandsRefusedByMode :
    ((part .running).withHost 0x02 []).Heads .start (record 0x02 []) [] ∧ modeRefuses .start .running = true
      ∧ ((part .halted).withHost 0x11 [1, 0]).Heads .release (record 0x11 [1, 0]) []
      ∧ modeRefuses .release .halted = true := by decide +kernel

theorem test_meets_RefusedCommandsChangeNothing :
    ((part .halted).withHost 0x11 [1, 0]).Heads .release (record 0x11 [1, 0]) [] := by decide +kernel

theorem test_meets_ChoicesAreFollowedThroughFirst :
    ((part .running).withChoice ⟨1, .bulk, .fair⟩).sel.choice ≠ none ∧ (part .running).sel.choice = none
      ∧ ((part .running).withOrders [{ order 37 1 .fair [] with deadline := 1000 }]).timeoutDue ≠ none
      ∧ ({ part .running with rck := { (part .running).rck with deviceTime := 51000 } } : State).roundDue = true
      ∧ ({ part .running with rck := { (part .running).rck with deviceTime := 11000 } } : State).promptDue = true
      ∧ ((part .running).withChoice ⟨1, .bulk, .fair⟩).sel.choice = some ⟨1, .bulk, .fair⟩
      ∧ passed (part .running).rck.deviceTime (⟨1000, 0, 1, .bulk⟩ : ExpiryRef).deadline = true
      ∧ (⟨1000, 0, 511, .bulk⟩ : ExpiryRef).station ≠ 1 := by decide +kernel

/-! ## CONFIGURE to STATUS -/

/-- A CONFIGURE body with USE_DEFAULTS set. -/
def useDefaults : List Byte := 1 :: List.replicate 39 0

/-- A CONFIGURE body that carries the default values field by field. -/
def carriedDefaults : List Byte :=
  [0x00, 0x50, 0xC3, 0x00, 0x00, 0x10, 0x27, 0x01, 0x96, 0x00, 0x32, 0x00, 0xFA, 0x00, 0xBC, 0x02, 0x50, 0x00, 0x04,
    0xA0]
  ++ [0x0F, 0x10, 0x02, 0x14, 0x03, 0x02, 0x40, 0x00, 0x20, 0x4E, 0x01, 0x04, 0xF4, 0x01, 0x0C, 0x00, 0x0C, 0x00,
    0x00, 0x00]

theorem test_configure_fields : (parseConfigure carriedDefaults).toConfiguration = .default := by decide +kernel

theorem test_meets_ConfigureLeavesHalted :
    ((part .halted).withHost 0x01 useDefaults).Heads .configure (record 0x01 useDefaults) []
      ∧ ((part .halted).withHost 0x01 carriedDefaults).Heads .configure (record 0x01 carriedDefaults) []
      ∧ (part .halted).mod.mode = .halted ∧ (part .halted).mod.configValid = false
      ∧ (parseConfigure useDefaults).useDefaults = true ∧ (parseConfigure carriedDefaults).valid = true
      ∧ (part .halted).fpl.freeEntries = 4096 := by decide +kernel

/-- A CONFIGURE body that asks for PULSE operation. -/
def carriedPulse : List Byte := carriedDefaults.set 38 1

theorem test_meets_ConfigureInReadyReclamps :
    ((part .ready).withHost 0x01 useDefaults).Heads .configure (record 0x01 useDefaults) []
      ∧ (part .ready).mod.mode = .ready ∧ (part .ready).fpl.freeEntries = 4096
      ∧ ((part .ready).withHost 0x01 carriedPulse).Heads .configure (record 0x01 carriedPulse) []
      ∧ (parseConfigure carriedPulse).valid = true
      ∧ (parseConfigure carriedPulse).toConfiguration.attnMode ≠ (part .ready).mod.config.attnMode := by decide +kernel

theorem test_meets_ConfigureRefusals :
    ((part .ready).withHost 0x01 (List.replicate 40 0)).Heads .configure (record 0x01 (List.replicate 40 0)) []
      ∧ (parseConfigure (List.replicate 40 0)).useDefaults = false
      ∧ (parseConfigure (List.replicate 40 0)).valid = false
      ∧ ({ part .ready with fpl := { (part .ready).fpl with freeEntries := 4095 } } : State).fpl.freeEntries ≠ 4096 := by
  decide +kernel

theorem test_meets_StartMakesBoundaryZero :
    ((part .ready).withHost 0x02 []).Heads .start (record 0x02 []) [] ∧ (part .ready).mod.mode = .ready
      ∧ (part .ready).mod.causes = .empty
      ∧ ({ (part .ready).mod with causes := ⟨true, false, false⟩ } : Mod).causes ≠ .empty := by decide +kernel

theorem test_meets_StopDrainsOrEnds :
    ((part .ready).withHost 0x03 []).Heads .stop (record 0x03 []) []
      ∧ ((part .quiet).withHost 0x03 []).Heads .stop (record 0x03 []) []
      ∧ (((part .running).withOrders [order 37 1 .fair []]).withHost 0x03 []).Heads .stop (record 0x03 []) []
      ∧ (part .quiet).ord.outstanding = []
      ∧ ((part .running).withOrders [order 37 1 .fair []]).ord.outstanding ≠ [] := by decide +kernel

theorem test_meets_AbortCancelsTheOrders :
    (((part .draining).withOrders [order 37 1 .fair []]).withHost 0x04 []).Heads .abort (record 0x04 []) []
      ∧ (part .draining).ord.quarantine.length ≤ 8 ∧ ((part .draining).station 1).state ≠ .leaving := by
  decide +kernel

/-- A part in mode `m` whose LEAVING station 1 has its last two orders outstanding, ABORT or RESET waiting. -/
def leavingPart (m : Mode) (typ : Byte) : State :=
  (((part m).withStation 1 .leaving 2).withOrders [order 37 1 .fair [], order 38 1 .fair []]).withHost typ []

theorem test_meets_AbortVacatesALeavingStation :
    (leavingPart .quiet 0x04).Heads .abort (record 0x04 []) []
      ∧ ((leavingPart .quiet 0x04).ord.outstanding.map Order.station).reverse.eraseDups.reverse.filter
        (fun i => ((leavingPart .quiet 0x04).station i).state == .leaving) = [1]
      ∧ ((leavingPart .quiet 0x04).station 1).inFlight = (leavingPart .quiet 0x04).ordersNaming 1 := by decide +kernel

theorem test_meets_ResetCleansThePart :
    (((part .quiet).withStation 511 .backlogged 1).withHost 0x05 []).Heads .reset (record 0x05 []) []
      ∧ (part .quiet).mod.mode ≠ .halted ∧ (((part .quiet).withStation 511 .backlogged 1).station 511).state = .backlogged
      ∧ ((part .quiet).station 0).state ≠ .backlogged
      ∧ (leavingPart .quiet 0x05).Heads .reset (record 0x05 []) [] := by decide +kernel

theorem test_meets_QuietAndResumeChangeTheCauses :
    ((part .draining).withHost 0x06 []).Heads .quiet (record 0x06 []) []
      ∧ ((part .quiet).withHost 0x07 []).Heads .resume (record 0x07 []) []
      ∧ (Mod.quietSet { (part .quiet).mod with causes := ⟨false, false, true⟩ } .empty).mode = .running := by
  decide +kernel

theorem test_meets_StatusReportsThePart :
    ((part .halted).withHost 0x08 []).Heads .status (record 0x08 []) []
      ∧ ((part .running).withHost 0x08 []).Heads .status (record 0x08 []) [] := by decide +kernel

/-! ## Stations, frames, cohorts, tables -/

/-- ADMIT of station 511 with weight 64 and rate 2400. -/
def admitBody : List Byte := [0xFF, 0x01, 1, 2, 3, 4, 5, 6, 64, 0, 0x60, 0x09]

theorem test_admit_fields : parseAdmit admitBody = ⟨511, 0x060504030201, 64, 2400⟩ := by decide +kernel

theorem test_meets_AdmitMakesAStationIdle :
    ((part .ready).withHost 0x10 admitBody).Heads .admitStation (record 0x10 admitBody) []
      ∧ ((part .ready).station 511).state = .vacant ∧ LinkNote.unbind 511 ∉ (part .ready).stt.linkNotes
      ∧ (((part .ready).withStation 511 .idle 0).station 511).state ≠ .vacant
      ∧ 511 < (parseAdmit (0 :: 2 :: admitBody.drop 2)).index := by decide +kernel

theorem test_meets_ReleaseReturnsTheFrames :
    (((part .running).withStation 511 .dozing 0).withHost 0x11 [0xFF, 1]).Heads .release (record 0x11 [0xFF, 1]) []
      ∧ field [0xFF, 1] 0 2 = 511 ∧ field [0, 2] 0 2 = 512
      ∧ (((part .running).withStation 511 .dozing 0).station 511).inFlight = 0
      ∧ (((part .running).withStation 511 .idle 1).station 511).inFlight ≠ 0
      ∧ ((part .running).station 511).state = .vacant := by decide +kernel

theorem test_meets_SetWeightAppliesOrStages :
    (((part .running).withStation 511 .idle 0).withHost 0x12 [0xFF, 1, 64, 1]).Heads .setWeight
        (record 0x12 [0xFF, 1, 64, 1]) []
      ∧ parseStationChange [0xFF, 1, 64, 1] = ⟨511, 64, true⟩ ∧ parseStationChange [0, 2, 1, 0] = ⟨512, 1, false⟩
      ∧ parseStationChange [1, 0, 65, 0] = ⟨1, 65, false⟩ ∧ parseStationChange [0, 0, 1, 0] = ⟨0, 1, false⟩
      ∧ (((part .running).withStation 511 .idle 0).station 511).state = .idle
      ∧ ((part .halted).withHost 0x12 [1, 0, 1, 0]).Heads .setWeight (record 0x12 [1, 0, 1, 0]) [] := by
  decide +kernel

theorem test_meets_HoldAppliesOrStages :
    (((part .running).withStation 511 .idle 0).withHost 0x13 [0xFF, 1, 1, 0]).Heads .hold
        (record 0x13 [0xFF, 1, 1, 0]) []
      ∧ parseStationChange [0xFF, 1, 1, 0] = ⟨511, 1, false⟩ ∧ parseStationChange [0xFF, 1, 0, 1] = ⟨511, 0, true⟩
      ∧ parseStationChange [1, 0, 2, 0] = ⟨1, 2, false⟩
      ∧ (((part .running).withStation 511 .leaving 1).station 511).state = .leaving := by decide +kernel

/-- An ENQUEUE of one frame of 12,000 bytes for station 511, lane SLACK, lifetime 4,095 ms. -/
def enqueueBody : List Byte := [1, 0, 1, 0x10, 0, 0, 0xFF, 1, 2, 0, 0xE0, 0x2E, 0xFF, 0x0F]

theorem test_enqueue_fields : parseEnqueue enqueueBody = [⟨0x1001, 511, 2, false, 12000, 4095⟩] := by decide +kernel

theorem test_meets_EnqueueDecidesEveryFrame :
    ((part .running).withHost 0x20 enqueueBody).Heads .enqueue (record 0x20 enqueueBody) []
      ∧ field enqueueBody 0 1 = 1 ∧ ((part .running).withHost 0x20 [0, 0]).Heads .enqueue (record 0x20 [0, 0]) []
      ∧ bodyLengthOk .enqueue (17 :: List.replicate 205 0) = true := by decide +kernel

theorem test_meets_FrameRecordsAreChecked :
    (((part .running).withStation 511 .idle 0).offerFrame ⟨0x1001, 511, 2, false, 12000, 4095⟩).2 = .ok
      ∧ (((part .running).withStation 511 .idle 0).offerFrame ⟨0x1001, 511, 2, false, 12001, 4095⟩).2 = .badRange
      ∧ ((part .running).offerFrame ⟨0x1001, 511, 2, false, 12000, 4095⟩).2 = .notAdmitted
      ∧ ((part .running).offerFrame ⟨0x1001, 512, 2, false, 12000, 4095⟩).2 = .badRange := by decide +kernel

/-- A RUNNING part with a BACKLOGGED station 1 on the active list, two frames in its BULK lane. -/
def backlog : State :=
  ((({ part .running with sel := { (part .running).sel with active := [1] } }).withStation 1 .backlogged 0).setLane 1 .bulk
      [frame 1 .bulk 1500 0, frame 1 .bulk 600 1]).updFpl fun p => { p with freeEntries := 4094, nextSequence := 2 }

/-- A RUNNING part with a DOZING station 511 that has one PROMPT frame. -/
def dozing : State :=
  (((part .running).withStation 511 .dozing 0).setLane 511 .prompt [frame 511 .prompt 60 0]).updFpl
    fun p => { p with freeEntries := 4095 }

/-- `dozing` with its grant on the poll list. -/
def granted : State :=
  dozing.updSel fun e => { e with poll := [511] }

theorem test_meets_ResetToldPolledStations :
    (granted.withHost 0x05 []).Heads .reset (record 0x05 []) []
      ∧ (List.range 512).filter (fun i => decide (i ≠ 0 ∧ i ∈ granted.sel.poll ∧ (granted.station i).state = .dozing
          ∧ (granted.lanesOf i).allEmpty = false)) = [511]
      ∧ granted.radioFree ≠ 0 ∧ (granted.withRadio 8).radioFree = 0 := by decide +kernel

theorem test_meets_FlushReturnsTheNamedLanes :
    (backlog.withHost 0x21 [1, 0, 7]).Heads .flush (record 0x21 [1, 0, 7]) []
      ∧ (backlog.station 1).state = .backlogged ∧ backlog.lane 1 .bulk ≠ []
      ∧ field [0, 2, 7] 0 2 = 512 ∧ field [1, 0, 8] 2 1 = 8 ∧ (backlog.station 2).state = .vacant
      ∧ ((granted.withHost 0x21 [0xFF, 1, 1]).Heads .flush (record 0x21 [0xFF, 1, 1]) [])
      ∧ 511 ∈ granted.sel.poll ∧ (granted.station 511).state = .dozing ∧ granted.lane 511 .prompt ≠ []
      ∧ LinkNote.pollEmpty 511 ∉ granted.stt.linkNotes := by decide +kernel

theorem test_meets_SetCohortAppliesOrStages :
    ((part .ready).withHost 0x30 [31, 0, 0, 2, 1, 0]).Heads .setCohort (record 0x30 [31, 0, 0, 2, 1, 0]) []
      ∧ ((part .quiet).withHost 0x30 [31, 0, 0, 0, 1, 0]).Heads .setCohort (record 0x30 [31, 0, 0, 0, 1, 0]) []
      ∧ parseSetCohort [31, 0, 0, 2, 1, 0] = ⟨31, 512, 1⟩ ∧ parseSetCohort [32, 0, 1, 2, 0xE9, 3] = ⟨32, 513, 1001⟩
      ∧ ((part .halted).withHost 0x30 [0, 0, 0, 0, 0, 0]).Heads .setCohort (record 0x30 [0, 0, 0, 0, 0, 0]) [] := by
  decide +kernel

theorem test_meets_QueryReadsATable :
    ((part .ready).withHost 0x40 [0, 0, 0xFF, 1, 11, 0]).Heads .query (record 0x40 [0, 0, 0xFF, 1, 11, 0]) []
      ∧ queryTableOf 5 = some .quarantine ∧ queryTableOf 0 = some .station
      ∧ field [0, 0, 0, 2, 1, 0] 2 2 = 512 ∧ field [6, 0, 0, 0, 0, 0] 0 1 = 6 := by decide +kernel

/-! ## Notices, ATTN, Radio Link -/

theorem test_meets_TokenReturnFreesEntries :
    (State.withReturn ((part .running).withOut 14) (frame 1 .bulk 1500 0)).fpl.returnList ≠ []
      ∧ (State.withReturn ((part .running).withOut 14) (frame 1 .bulk 1500 0)).cli.outbound.length + 2 ≤ 16
      ∧ 16 < ((part .running).withOut 15).cli.outbound.length + 2 := by decide +kernel

theorem test_meets_AlertReportsThePart :
    ({ part .ready with mod := { (part .ready).mod with pendingAlert := true } } : State).mod.pendingAlert = true
      ∧ (part .ready).cli.outbound.length + 2 ≤ 16 ∧ (part .ready).mod.pendingAlert = false := by decide +kernel

theorem test_meets_AttnFollowsItsMode :
    ({ part .ready with cli := { (part .ready).cli with pulse := some 998, backlog := 1 } } : State).cli.pulse = some 998
      ∧ passed (part .ready).rck.deviceTime (998 + 2) = true ∧ passed (part .ready).rck.deviceTime (999 + 2) = false
      ∧ (part .ready).mod.configValid = true ∧ (part .ready).mod.config.attnMode = .level
      ∧ (part .halted).mod.configValid = false := by decide +kernel

theorem test_meets_RadioRecordsArrive :
    (State.arriving .reset .claimed).rli.arrival = .claimed ∧ (State.arriving .reset .discarding).rli.arrival = .discarding
      ∧ State.reset.rli.arrival = .idle ∧ parseMacRecord [0x63, 0, 0, 0] = some .mediumClear
      ∧ parseMacRecord [0x63, 0, 1, 0, 0] = none ∧ State.reset.rli.inbound.length < 16
      ∧ 16 ≤ ({ Rli.pinReset with inbound := List.replicate 16 .mediumClear } : Rli).inbound.length
      ∧ exec (.recordEnd []) State.reset = .next State.reset := by
  refine ⟨?_, ?_, ?_, ?_, ?_, ?_, ?_, rfl⟩ <;> decide +kernel

theorem test_meets_RadioRecordsAreSentWhole :
    (State.withRadio .reset 1).rli.outbound ≠ [] ∧ (State.withRadio .reset 1).rli.sending = false
      ∧ ({ State.withRadio .reset 1 with rli := { (State.withRadio .reset 1).rli with sending := true } } : State).rli.sending
        = true := by decide +kernel

theorem test_meets_RadioSlotsAreGivenInOrder :
    ({ State.withRadio .reset 7 with ord := { Ord.pinReset with cancelPending := true } } : State).rli.outbound.length < 8
      ∧ 8 ≤ (State.withRadio .reset 8).rli.outbound.length
      ∧ ({ State.reset with stt := { Stt.pinReset with linkNotes := [.unbind 1] } } : State).stt.linkNotes = .unbind 1 :: []
      ∧ ((part .running).withOrders [order 36 1 .fair [], { order 37 1 .fair [] with sent := .waiting }]).ord.outstanding
        = [order 36 1 .fair []] ++ { order 37 1 .fair [] with sent := .waiting } :: []
      ∧ (order 36 1 .fair []).sent = .placed := by decide +kernel

/-! ## Outcomes and medium records -/

/-- The three frames of order 37. -/
def three : List Frame := [frame 1 .bulk 1500 0, frame 1 .bulk 1500 1, frame 1 .bulk 600 2]

/-- A RUNNING part with order 37 of station 1 and order 38 outstanding, and its outcome waiting. -/
def answered (x : StationState) (n : Nat) : State :=
  (((part .running).withStation 1 x n).withOrders
    [{ order 37 1 .prompt three with cohort := some 31 }, order 38 1 .fair three]).withMac (.txOutcome outcome)

theorem test_meets_AcceptedOutcomeConcludesTheOrder :
    (answered .idle 2).Delivers (.txOutcome outcome) []
      ∧ (answered .idle 2).ord.outstanding
        = [] ++ { order 37 1 .prompt three with cohort := some 31 } :: [order 38 1 .fair three]
      ∧ (∀ p ∈ [order 38 1 .fair three], p.id ≠ outcome.id) ∧ ((answered .idle 2).station 1).state ≠ .leaving
      ∧ (answered .idle 2).mod.mode ≠ .draining
      ∧ ({ answered .idle 2 with coh := ⟨(answered .idle 2).coh.cohorts.modify 31 fun c => { c with span := 1 }⟩ } :
          State).cohort 31 = { Cohort.pinReset with span := 1 } := by decide +kernel

theorem test_meets_OutcomeEndsALeavingStationOrADrain :
    (answered .leaving 1).Delivers (.txOutcome outcome) [] ∧ ((answered .leaving 1).station 1).state = .leaving
      ∧ ((answered .leaving 1).station 1).inFlight = 1 ∧ ((answered .leaving 2).station 1).inFlight = 2
      ∧ (((part .draining).withOrders [order 37 1 .fair three]).withMac (.txOutcome outcome)).Delivers
        (.txOutcome outcome) []
      ∧ ((part .draining).withOrders [order 37 1 .fair three]).ord.outstanding = [] ++ order 37 1 .fair three :: []
      ∧ (part .draining).mod.mode = .draining
      ∧ ({ outcome with frameCount := 2 } : Outcome).frameCount ≠ (order 37 1 .fair three).frames.length := by
  decide +kernel

theorem test_meets_LateAndUnmatchedOutcomesAreDiscarded :
    ((part .running).withMac (.txOutcome outcome)).Delivers (.txOutcome outcome) []
      ∧ (∀ o ∈ (part .running).ord.outstanding, o.id ≠ outcome.id) ∧ outcome.id ∉ (part .running).ord.quarantine
      ∧ outcome.id ∈ ({ (part .running).ord with quarantine := [37] } : Ord).quarantine := by decide +kernel

theorem test_meets_MediumReportSetsFreeNow :
    ((part .halted).withMac (.mediumReport 65535)).Delivers (.mediumReport 65535) []
      ∧ ((part .ready).withMac (.mediumReport 65535)).Delivers (.mediumReport 65535) []
      ∧ (part .ready).mgd.blanking = none ∧ (State.blanked (part .ready)).mgd.blanking ≠ none := by decide +kernel

theorem test_meets_MediumAlertBeginsAnEpisode :
    ((part .halted).withMac (.mediumAlert .other)).Delivers (.mediumAlert .other) []
      ∧ ((part .running).withMac (.mediumAlert .vacate)).Delivers (.mediumAlert .vacate) [] := by decide +kernel

theorem test_offset_of_R71 :
    ((part .running).atTime 51000).roundOffset = 49999 ∧ ((part .running).atTime 49999).roundOffset = 49999
      ∧ (part .ready).roundOffset = 0 := by decide +kernel

theorem test_meets_MediumClearEndsTheEpisode :
    ((part .halted).withMac .mediumClear).Delivers .mediumClear []
      ∧ ({ (part .quiet).withMac .mediumClear with
          mod := { (part .quiet).mod with causes := ⟨true, false, false⟩ } } : State).Delivers .mediumClear []
      ∧ (Mod.quietSet { (part .quiet).mod with causes := ⟨true, false, false⟩ } .empty).mode = .running := by
  decide +kernel

theorem test_meets_DozeTakesAStationOffTheLists :
    (backlog.withMac (.doze 1)).Delivers (.doze 1) [] ∧ (backlog.station 1).state = .backlogged
      ∧ (((part .running).withStation 511 .dozing 0).withMac (.doze 511)).Delivers (.doze 511) []
      ∧ (((part .running).withStation 511 .dozing 0).station 511).state = .dozing
      ∧ ((part .running).withMac (.doze 512)).Delivers (.doze 512) []
      ∧ ((part .running).station 512).state = .vacant := by decide +kernel

theorem test_quantum_of_R13 :
    (((part .running).withStation 511 .dozing 0).updStation 511 fun x => { x with quantum := 72 }).rck.clocksRunning = true
      ∧ (((((part .running).withStation 511 .dozing 0).updStation 511 fun x => { x with quantum := 72 }).endDoze 511).station
        511).quantum = 0
      ∧ (((((part .ready).withStation 511 .dozing 0).updStation 511 fun x => { x with quantum := 72 }).endDoze 511).station
        511).quantum = 72 := by decide +kernel

/-- A station that has emptied its lanes and joins the active list again in the middle of a round has quantum 0 (R56). -/
theorem test_quantum_of_R56 :
    (((((part .running).withStation 511 .idle 0).updStation 511 fun x => { x with quantum := 72 }).laneNonempty 511 .bulk).station
        511).quantum = 0
      ∧ (((((part .ready).withStation 511 .idle 0).updStation 511 fun x => { x with quantum := 72 }).laneNonempty 511 .bulk).station
        511).quantum = 72 := by decide +kernel

theorem test_meets_WakeEndsADoze :
    (dozing.withMac (.wake 511)).Delivers (.wake 511) [] ∧ (dozing.station 511).state = .dozing
      ∧ (backlog.withMac (.wake 1)).Delivers (.wake 1) [] ∧ (backlog.station 1).state = .backlogged
      ∧ (backlog.withMac (.wake 0)).Delivers (.wake 0) [] := by decide +kernel

theorem test_meets_PollGrantsOneFrame :
    (dozing.withMac (.poll 511)).Delivers (.poll 511) [] ∧ (dozing.lanesOf 511).allEmpty = false
      ∧ (((part .quiet).withStation 511 .dozing 0).withMac (.poll 511)).Delivers (.poll 511) []
      ∧ (((part .quiet).withStation 511 .dozing 0).lanesOf 511).allEmpty = true
      ∧ LinkNote.pollEmpty 511 ∉ (part .quiet).stt.linkNotes
      ∧ (backlog.withMac (.poll 1)).Delivers (.poll 1) [] ∧ (backlog.withMac (.poll 512)).Delivers (.poll 512) [] := by
  decide +kernel

/-! ## Deadlines and boundaries -/

/-- `backlog` with the first frame's deadline at device time. -/
def expiring : State :=
  (backlog.setLane 1 .bulk [{ frame 1 .bulk 1500 0 with deadline := some 1000 }, frame 1 .bulk 600 1]).updFpl
    fun p => { p with expiry := [⟨1000, 0, 1, .bulk⟩] }

theorem test_meets_ExpiredFrameIsReturned :
    expiring.fpl.expiry = ⟨1000, 0, 1, .bulk⟩ :: [] ∧ passed expiring.rck.deviceTime 1000 = true
      ∧ expiring.lane 1 .bulk
        = [] ++ { frame 1 .bulk 1500 0 with deadline := some 1000 } :: [frame 1 .bulk 600 1]
      ∧ expiring.sel.choice = none ∧ passed expiring.rck.deviceTime 1001 = false
      ∧ (expiring.withChoice ⟨1, .bulk, .fair⟩).sel.choice = some ⟨1, .bulk, .fair⟩
      ∧ (⟨1000, 0, 1, .bulk⟩ : ExpiryRef).station = 1 ∧ 511 ∈ granted.sel.poll
      ∧ granted.lane 511 .prompt = [] ++ frame 511 .prompt 60 0 :: [] := by decide +kernel

theorem test_meets_TimedOutOrderIsLost :
    ((answered .idle 2).withOrders [order 36 2 .fair three, { order 37 1 .fair three with deadline := 1000 }]).ord.outstanding
        = [order 36 2 .fair three] ++ { order 37 1 .fair three with deadline := 1000 } :: []
      ∧ (∀ p ∈ [order 36 2 .fair three], passed (part .running).rck.deviceTime p.deadline = false)
      ∧ passed (part .running).rck.deviceTime 1000 = true
      ∧ (∀ o ∈ (answered .idle 2).ord.outstanding, passed (part .running).rck.deviceTime o.deadline = false)
      ∧ (leavingPart .draining 0).mod.mode = .draining ∧ ((leavingPart .draining 0).station 1).state = .leaving
      ∧ ((leavingPart .draining 0).station 1).inFlight = 2 ∧ ((answered .leaving 1).station 1).inFlight = 1 := by
  decide +kernel

theorem test_meets_BlankingEndsAtItsDeadline :
    (State.blanked (part .ready)).mgd.blanking = some 2000 ∧ passed 2000 2000 = true
      ∧ passed (part .ready).rck.deviceTime 2000 = false := by decide +kernel

theorem test_meets_RoundBoundaryBeginsARound :
    ((part .running).atTime 51000).rck.clocksRunning = true ∧ passed 51000 (part .running).rck.nextRoundAt = true
      ∧ passed 50999 (part .running).rck.nextRoundAt = false ∧ (part .running).sel.choice = none
      ∧ (part .running).mod.config.reportEvery = 4
      ∧ ({ (part .running).rck with postscaler := 3 } : Rck).postscaler + 1 = 4
      ∧ ((part .running).withOut 14).cli.outbound.length + 2 ≤ 16
      ∧ 16 < ((part .running).withOut 15).cli.outbound.length + 2 := by decide +kernel

theorem test_meets_PromptBoundaryResetsTheBudget :
    ((part .running).atTime 11000).rck.clocksRunning = true ∧ passed 11000 (part .running).rck.nextPromptAt = true
      ∧ 0 < ((part .running).rck.nextRoundAt - (part .running).rck.nextPromptAt).toInt
      ∧ passed 10999 (part .running).rck.nextPromptAt = false ∧ (part .running).mod.config.promptSync = true := by
  decide +kernel

/-! ## Selection, builds, quanta -/

theorem test_meets_SelectionRunTakesTheFirstCandidate :
    ¬ (part .quiet).RunOpen ∧ backlog.RunOpen ∧ ¬ backlog.GroupOpen ∧ backlog.PromptShut
      ∧ backlog.sel.active = [] ++ 1 :: [] ∧ backlog.sel.poll = [] ∧ backlog.sel.active.Nodup
      ∧ ¬ backlog.PassesAbove 0 1 ∧ backlog.PassesAbove (-(backlog.mod.config.debtLimitUs : Int)) 1
      ∧ (backlog.lanesOf 1).first = some .bulk := by
  refine ⟨?_, ?_, ?_, ?_, ?_⟩
  · unfold State.RunOpen; decide +kernel
  · unfold State.RunOpen; decide +kernel
  · unfold State.GroupOpen; decide +kernel
  · unfold State.PromptShut; decide +kernel
  · refine ⟨by decide +kernel, by decide +kernel, by decide +kernel, fun h => ?_, ?_, by decide +kernel⟩
    · exact absurd h.2.1 (by decide +kernel)
    · exact ⟨by decide +kernel, by decide +kernel, fun c h => absurd h (by
        rw [show (backlog.station 1).cohort = none by decide +kernel]; simp), by decide +kernel⟩

/-- `backlog` with credit, a group frame due, and a DOZING station 511 with a grant. -/
def allSteps : State :=
  ((backlog.setLane 0 .bulk [frame 0 .bulk 200 2]).updStation 1 fun x => { x with balance := 1 }).updSel
    fun e => { e with groupDue := true, groupBudget := 1, poll := [511], prompt := [1], promptBudget := 1 }

theorem test_meets_the_steps_of_a_run :
    allSteps.GroupOpen ∧ 0 < allSteps.sel.promptBudget ∧ allSteps.sel.prompt = [] ++ 1 :: []
      ∧ (allSteps.station 1).held = false ∧ allSteps.sel.poll = 511 :: [] ∧ 0 < (allSteps.station 1).balance
      ∧ (dozing.lanesOf 511).first = some .prompt := by
  refine ⟨?_, by decide +kernel⟩
  unfold State.GroupOpen; decide +kernel

theorem test_meets_AggregateIsTheLongestAdmittedHead : three ≠ [] ∧ (1 < 3 ∧ 3 ≤ three.length) := by decide +kernel

/-- `backlog` with a choice of station 1 waiting, the next id 255 in quarantine. -/
def chosen : State :=
  { backlog with
    sel := { backlog.sel with choice := some ⟨1, .bulk, .fair⟩ }
    ord := { backlog.ord with nextId := 255, quarantine := [255] } }

theorem test_meets_OrderBuildIssuesAnOrder :
    chosen.sel.choice = some ⟨1, .bulk, .fair⟩ ∧ 1 ∉ chosen.sel.poll
      ∧ aggregate chosen.mod.config 240 16 (chosen.lane 1 .bulk) = [frame 1 .bulk 1500 0, frame 1 .bulk 600 1]
      ∧ chosen.lane 1 .bulk = [frame 1 .bulk 1500 0, frame 1 .bulk 600 1] ++ []
      ∧ (0 : OrderId) ∉ chosen.ord.quarantine
      ∧ (∀ k, k < ((0 : OrderId) - chosen.ord.nextId).toNat →
          chosen.ord.nextId + BitVec.ofNat 8 k ∈ chosen.ord.quarantine)
      ∧ 0 < chosen.radioFree ∧ chosen.ord.cancelPending = false ∧ chosen.stt.linkNotes = []
      ∧ (chosen.withRadio 8).radioFree = 0 := by decide +kernel

theorem test_meets_EmptyBuildIssuesNoOrder :
    ((part .running).withChoice ⟨511, .slack, .poll⟩).sel.choice = some ⟨511, .slack, .poll⟩
      ∧ ((part .running).withChoice ⟨511, .slack, .poll⟩).lane 511 .slack = []
      ∧ LinkNote.pollEmpty 511 ∉ ((part .running).withChoice ⟨511, .slack, .poll⟩).stt.linkNotes
      ∧ ((part .running).withChoice ⟨511, .slack, .fair⟩).lane 511 .slack = [] ∧ (part .running).sel.choice = none := by
  decide +kernel

theorem test_meets_QuantaStayWithinThePool : 0 < backlog.boundaryWeight ∧ (2 ≤ 2400 ∧ 2400 ≤ 2400) := by
  decide +kernel

/-! ## Invariants -/

/-- `backlog` with order 37 of station 1 outstanding and two frames of station 1 in flight. -/
def busy : State :=
  ((backlog.withOrders [order 37 1 .fair [frame 1 .bulk 1500 2, frame 1 .bulk 1500 3]]).updStation 1 fun x =>
    { x with inFlight := 1, balance := -20000 }).updStation 0 (Station.groupStation .default)
  |>.updFpl fun p => { p with freeEntries := 4092 }

theorem test_meets_StepKeepsModesAndOrders : busy.ModeInv ∧ busy.OrderInv := by
  refine ⟨⟨?_, ?_, ?_, ?_, ?_, ?_, ?_⟩, ⟨?_, ?_, ?_, ?_, ?_, ?_, ?_, ?_, ?_, ?_, ?_⟩⟩ <;> decide +kernel

theorem test_meets_StepKeepsThePool : busy.PoolInv := by
  refine ⟨?_, ?_⟩ <;> decide +kernel

theorem station_mem (s : State) {i : Nat} (h : i < 512) : s.station i ∈ s.stt.stations.rows := by
  have : i < s.stt.stations.rows.length := by rw [s.stt.stations.size]; exact h
  rw [State.station, Table.get, List.getD_eq_getElem _ _ this]
  exact List.getElem_mem this

theorem test_meets_StepKeepsTheAccounts : busy.AccountInv := by
  have hb : ∀ x ∈ busy.stt.stations.rows, -(busy.mod.config.debtLimitUs : Int) ≤ x.balance ∧ x.balance ≤ x.cap
      ∧ x.cap ≤ Config.airtimeMax := by decide +kernel
  have hr : ∀ x ∈ busy.stt.stations.rows, Config.minRate ≤ x.rate ∧ x.rate ≤ Config.maxRate := by decide +kernel
  refine ⟨fun i h => hb _ (station_mem busy h), fun h => absurd h (by decide +kernel), ?_, ?_,
    fun i h => hr _ (station_mem busy h), ?_, ?_, ?_⟩ <;> decide +kernel

theorem busy_station (i : Nat) (h : 2 ≤ i) : busy.station i = .cleared none := by
  simp only [busy, backlog, part, State.withStation, State.setLane, State.withOrders, State.station, State.updStation,
    State.updStt, State.updFpl, Table.get_modify]
  rw [if_neg (by omega), if_neg (by omega), if_neg (by omega)]
  exact (Table.get_replicate _ _ _).trans (ite_self _)

theorem busy_lanes (i : Nat) (h : 2 ≤ i) : busy.lanesOf i = .empty := by
  simp only [busy, backlog, part, State.withStation, State.setLane, State.withOrders, State.lanesOf, State.updStation,
    State.updStt, State.updFpl, Table.get_modify]
  rw [if_neg (by omega)]
  exact (Table.get_replicate _ _ _).trans (ite_self _)

/-- What holds of stations 0 and 1 and of a cleared station with empty lanes holds of every station of `busy`. -/
theorem busy_all (P : Nat → Station → Lanes → Prop) (h0 : P 0 (busy.station 0) (busy.lanesOf 0))
    (h1 : P 1 (busy.station 1) (busy.lanesOf 1)) (h : ∀ i, 2 ≤ i → P i (.cleared none) .empty) (i : Nat) :
    P i (busy.station i) (busy.lanesOf i) := by
  by_cases hi : 2 ≤ i
  · rw [busy_station i hi, busy_lanes i hi]; exact h i hi
  · obtain rfl | rfl : i = 0 ∨ i = 1 := by omega
    · exact h0
    · exact h1

theorem test_meets_StepKeepsTheLists : busy.ListInv := by
  have ha : busy.sel.active = [1] := rfl
  have hp : busy.sel.prompt = [] := rfl
  have hn : ∀ i, 2 ≤ i → busy.ordersNaming i = 0 := by
    intro i h
    simp only [State.ordersNaming, show busy.ord.outstanding
      = [order 37 1 .fair [frame 1 .bulk 1500 2, frame 1 .bulk 1500 3]] from rfl, order]
    simp; omega
  refine ⟨by decide +kernel, fun i => ?_, by decide +kernel, fun i => ?_, by decide +kernel, by decide +kernel,
    busy_all (fun i x l => i ≠ 0 → x.state = .backlogged → l.allEmpty = false) ?_ ?_ ?_,
    busy_all (fun i x l => i ≠ 0 → x.state = .idle → l.allEmpty = true) ?_ ?_ ?_,
    busy_all (fun i x l => x.state = .vacant ∨ x.state = .leaving → l.allEmpty = true) ?_ ?_ ?_,
    (fun c h => by cases h), by decide +kernel, by decide +kernel, by decide +kernel,
    busy_all (fun i x _ => x.inFlight = busy.ordersNaming i) ?_ ?_ (fun i h => (hn i h).symm),
    busy_all (fun _ x _ => x.state = .vacant → x.inFlight = 0) ?_ ?_ ?_,
    busy_all (fun _ x _ => x.state = .leaving → x.inFlight ≠ 0) ?_ ?_ ?_⟩
  · rw [ha]
    exact busy_all (fun i x _ => i ∈ [1] ↔ i ≠ 0 ∧ x.state = .backlogged) (by decide +kernel) (by decide +kernel)
      (fun i h => by simp [Station.cleared]; omega) i
  · rw [hp]
    exact busy_all (fun i x l => i ∈ [] ↔ i ≠ 0 ∧ x.state = .backlogged ∧ l.get .prompt ≠ []) (by decide +kernel)
      (by decide +kernel) (fun i h => by simp [Station.cleared]) i
  all_goals first | decide +kernel | (intro i _; simp [Station.cleared, Lanes.empty, Lanes.allEmpty])

/-- `busy` with a choice of station 1 waiting for its build. -/
def waiting : State :=
  busy.withChoice ⟨1, .bulk, .fair⟩

theorem test_meets_a_choice_is_built_by_settle :
    waiting.ModeInv ∧ waiting.OrderInv ∧ waiting.ListInv ∧ waiting.resetN = false ∧ waiting.sel.choice ≠ none := by
  obtain ⟨a1, a2, a3, a4, a5, a6, a7, a8, a9, _, a11, a12, a13, a14, a15, a16⟩ := test_meets_StepKeepsTheLists
  refine ⟨⟨?_, ?_, ?_, ?_, ?_, ?_, ?_⟩, ⟨?_, ?_, ?_, ?_, ?_, ?_, ?_, ?_, ?_, ?_, ?_⟩,
    ⟨a1, a2, a3, a4, a5, a6, a7, a8, a9, ?_, a11, a12, a13, a14, a15, a16⟩, ?_, ?_⟩
  all_goals decide +kernel

theorem test_meets_StepKeepsTheQueues : busy.QueueInv := by
  refine ⟨?_, ?_, ?_, ?_, ?_, ?_, ?_, ?_, ?_⟩ <;> decide +kernel

end Sys2Proof.Tests
end

section
/-!
The accounts (R2, R16, R18, R62, R64, R65): what one station record, one cohort record and the selector's budgets
must satisfy, how each shared operation keeps it, and with that StepKeepsTheAccounts.
-/
namespace Sys2Proof.Machine

/-- The account of station `i`; `p` says that the part is in HALTED. -/
structure Station.Sound (cfg : Configuration) (p : Prop) (i : Nat) (x : Station) : Prop where
  floor : -(cfg.debtLimitUs : Int) ≤ x.balance
  ceiling : x.balance ≤ x.cap
  cap : x.cap ≤ 65535
  halted : p → x.balance = 0
  rate : 2 ≤ x.rate ∧ x.rate ≤ 2400
  group : i = 0 → x.balance = 0 ∧ x.quantum = 0 ∧ x.cohort = none ∧ x.state ≠ .leaving
  groupRate : i = 0 → ¬ p → x.rate = cfg.groupRate ∧ x.cap = cfg.orderMaxUs

/-- The budget of a cohort (R62, R64). -/
def Cohort.Sound (c : Cohort) : Prop :=
  -65535 ≤ c.budget ∧ c.budget ≤ c.allot

/-- The selector's two budgets (R62, R65). -/
def Sel.Sound (e : Sel) : Prop :=
  (-65535 ≤ e.groupBudget ∧ e.groupBudget ≤ e.groupAllot) ∧ (-65535 ≤ e.promptBudget ∧ e.promptBudget ≤ e.promptAllot)

/-- The accounts of the whole part: AccountInv, with the ranges of the configuration record and the state of station 0,
record by record. -/
structure State.Solvent (s : State) : Prop where
  config : s.mod.config.inRanges = true
  stations : ∀ i, i < 512 → (s.station i).Sound s.mod.config (s.mod.mode = .halted) i
  cohorts : ∀ c, c < 32 → (s.cohort c).Sound
  sel : s.sel.Sound

theorem solvent_of_invariants {s : State} (hm : s.ModeInv) (hl : s.ListInv) (ha : s.AccountInv) : s.Solvent where
  config := hm.config
  stations i hi := by
    obtain ⟨h1, h2, h3⟩ := ha.balances i hi
    refine ⟨h1, h2, h3, fun h => ha.halted h i hi, ha.rates i hi, ?_, ?_⟩
    · rintro rfl
      refine ⟨ha.groupBalance.1, ha.groupBalance.2.1, ha.groupBalance.2.2, ?_⟩
      rw [hl.group]
      split <;> simp
    · rintro rfl
      exact ha.groupRate
  cohorts := ha.cohorts
  sel := ⟨ha.groupBudget, ha.promptBudget⟩

theorem State.Solvent.accountInv {s : State} (h : s.Solvent) : s.AccountInv where
  balances i hi := ⟨(h.stations i hi).floor, (h.stations i hi).ceiling, (h.stations i hi).cap⟩
  halted hm i hi := (h.stations i hi).halted hm
  groupBalance :=
    have h0 := (h.stations 0 (by decide)).group rfl
    ⟨h0.1, h0.2.1, h0.2.2.1⟩
  groupRate := (h.stations 0 (by decide)).groupRate rfl
  rates i hi := (h.stations i hi).rate
  cohorts := h.cohorts
  groupBudget := h.sel.1
  promptBudget := h.sel.2

/-! ## One record -/

/-- A change of a record's other fields keeps its account; of station 0 the quantum, the cohort and the state are part
of it. -/
theorem Station.Sound.of_same {cfg : Configuration} {p : Prop} {i : Nat} {x y : Station} (h : x.Sound cfg p i)
    (hb : y.balance = x.balance) (hc : y.cap = x.cap) (hr : y.rate = x.rate)
    (h0 : i = 0 → y.quantum = x.quantum ∧ y.cohort = x.cohort ∧ y.state = x.state) : y.Sound cfg p i := by
  refine ⟨hb ▸ h.floor, hb ▸ hc ▸ h.ceiling, hc ▸ h.cap, hb ▸ h.halted, hr ▸ h.rate, fun e => ?_, hr ▸ hc ▸ h.groupRate⟩
  rw [hb, (h0 e).1, (h0 e).2.1, (h0 e).2.2]
  exact h.group e

/-- A cleared record's account (R1). -/
theorem Station.Sound.cleared (cfg : Configuration) (p : Prop) {i : Nat} (c : Option Nat) (h0 : i ≠ 0) :
    (Station.cleared c).Sound cfg p i :=
  ⟨by simp [Station.cleared], by simp [Station.cleared], by simp [Station.cleared], fun _ => rfl,
    by simp [Station.cleared], fun e => absurd e h0, fun e => absurd e h0⟩

/-- A balance clamped to its bounds lies within them (R16). -/
theorem clampBalance_bounds (cfg : Configuration) (cap : Nat) (b : Int) :
    -(cfg.debtLimitUs : Int) ≤ clampBalance cfg cap b ∧ clampBalance cfg cap b ≤ cap := by
  unfold clampBalance clampInt
  split_ifs <;> omega

theorem clampBalance_of_bounds {cfg : Configuration} {cap : Nat} {b : Int} (h1 : -(cfg.debtLimitUs : Int) ≤ b)
    (h2 : b ≤ cap) : clampBalance cfg cap b = b := by
  unfold clampBalance clampInt
  split_ifs <;> omega

/-- A charge or a correction: the balance of a client is clamped, station 0's stays (R2, R61, R63). -/
theorem Station.Sound.of_clamped {cfg : Configuration} {p : Prop} {i : Nat} {x y : Station} {b : Int}
    (h : x.Sound cfg p i) (hp : ¬ p) (hb : y.balance = if i = 0 then x.balance else clampBalance cfg x.cap b)
    (hy : y = { x with balance := y.balance, usedRound := y.usedRound }) : y.Sound cfg p i := by
  have hcap : y.cap = x.cap := by rw [hy]
  by_cases h0 : i = 0
  · rw [if_pos h0] at hb
    exact h.of_same hb hcap (by rw [hy]) (fun _ => by rw [hy]; simp)
  · rw [if_neg h0] at hb
    obtain ⟨h1, h2⟩ := clampBalance_bounds cfg x.cap b
    refine ⟨hb ▸ h1, ?_, hcap ▸ h.cap, fun e => absurd e hp, ?_, fun e => absurd e h0, fun e => absurd e h0⟩
    · rw [hb, hcap]; exact h2
    · rw [hy]; exact h.rate

theorem blendRate_bounds (old q : Nat) : 2 ≤ blendRate old q ∧ blendRate old q ≤ 2400 := by
  unfold blendRate clampRate clampNat Config.minRate Config.maxRate
  split_ifs <;> omega

theorem capOf_le (cfg : Configuration) (q : Nat) : capOf cfg q ≤ 65535 :=
  min_le_left _ _

/-- The ranges of the configuration record that the accounts rest on (R159). -/
theorem inRanges_accounts {c : Configuration} (h : c.inRanges = true) :
    c.orderMaxUs ≤ 5000 ∧ (2 ≤ c.groupRate ∧ c.groupRate ≤ 2400) ∧ (2 ≤ c.defaultRate ∧ c.defaultRate ≤ 2400) := by
  simp only [Configuration.inRanges, inRange, Bool.and_eq_true, decide_eq_true_eq] at h
  omega

/-- The refill of a record at a boundary (R19). -/
theorem Station.Sound.refill {cfg : Configuration} {p : Prop} {i : Nat} {x : Station} (h : x.Sound cfg p i) (hp : ¬ p)
    (hc : cfg.inRanges = true) (pool w : Nat) (onActive : Bool) : (x.refill cfg pool w onActive i).Sound cfg p i := by
  have h5 := (inRanges_accounts hc).1
  have hf := h.floor
  unfold Station.refill
  split_ifs with h1 h2
  · exact h
  · have h0 : i ≠ 0 := fun e => h1 (Or.inr e)
    have := capOf_le cfg (quantumOf pool x.weight w)
    exact ⟨by dsimp only; omega, by dsimp only; omega, this, fun e => absurd e hp, h.rate,
      fun e => absurd e h0, fun e => absurd e h0⟩
  · have h0 : i ≠ 0 := fun e => h1 (Or.inr e)
    exact ⟨by dsimp only; omega, by dsimp only; omega, by dsimp only; omega, fun e => absurd e hp, h.rate,
      fun e => absurd e h0, fun e => absurd e h0⟩

/-- The re-clamp of a record to a new configuration (R20). -/
theorem Station.Sound.reclamp {cfg new : Configuration} {p : Prop} {i : Nat} {x : Station} (h : x.Sound cfg p i)
    (hp : ¬ p) (hn : new.inRanges = true) : (x.reclamp new i).Sound new p i := by
  obtain ⟨h5, h6, -⟩ := inRanges_accounts hn
  unfold Station.reclamp
  by_cases h0 : i = 0
  · obtain ⟨g1, g2, g3, g4⟩ := h.group h0
    have hb : clampBalance new new.orderMaxUs 0 = 0 := clampBalance_of_bounds (by omega) (by omega)
    simp only [h0, if_true, g1, hb]
    exact ⟨by dsimp only; omega, by dsimp only; omega, by dsimp only; omega, fun _ => rfl, h6,
      fun _ => ⟨rfl, g2, g3, g4⟩, fun _ _ => ⟨rfl, rfl⟩⟩
  · simp only [h0, if_false]
    obtain ⟨h1, h2⟩ := clampBalance_bounds new (if x.state = .vacant then x.cap else capOf new x.quantum) x.balance
    refine ⟨h1, h2, ?_, fun e => absurd e hp, h.rate, fun e => absurd e h0, fun e => absurd e h0⟩
    dsimp only
    split
    · exact h.cap
    · exact capOf_le _ _

/-- The soft reset of a record (R21). -/
theorem Station.Sound.softReset {cfg : Configuration} {p : Prop} {i : Nat} {x : Station} (h : x.Sound cfg p i)
    (hc : cfg.inRanges = true) : (x.softReset cfg).Sound cfg p i := by
  have h5 := (inRanges_accounts hc).1
  unfold Station.softReset
  split
  · exact h
  · exact ⟨by dsimp only; omega, by dsimp only; omega, by dsimp only; omega, fun _ => rfl, h.rate,
      fun e => ⟨rfl, rfl, (h.group e).2.2⟩, fun e hp => ⟨(h.groupRate e hp).1, rfl⟩⟩

/-- A station just admitted (R4). -/
theorem Station.Sound.admitted (cfg : Configuration) (p : Prop) {i : Nat} (x : Station) (a : AdmitFields) (h0 : i ≠ 0)
    (hc : cfg.inRanges = true) (ha : a.rate = 0 ∨ 2 ≤ a.rate ∧ a.rate ≤ 2400) :
    (x.admitted cfg a).Sound cfg p i := by
  obtain ⟨h5, -, h7⟩ := inRanges_accounts hc
  refine ⟨?_, ?_, ?_, fun _ => rfl, ?_, fun e => absurd e h0, fun e => absurd e h0⟩
  · dsimp only [Station.admitted]; omega
  · dsimp only [Station.admitted]; omega
  · dsimp only [Station.admitted]; omega
  · dsimp only [Station.admitted]
    split
    · exact h7
    · exact ha.resolve_left ‹_›

/-! ## Budgets -/

theorem correctBudget_bounds (b d : Int) (allot : Nat) :
    -65535 ≤ correctBudget b d allot ∧ correctBudget b d allot ≤ allot := by
  unfold correctBudget clampInt Config.airtimeMax
  split_ifs <;> omega

theorem chargeBudget_bounds {b : Int} {allot : Nat} (est : Nat) (h : b ≤ allot) :
    -65535 ≤ chargeBudget b est ∧ chargeBudget b est ≤ allot := by
  unfold chargeBudget Config.airtimeMax
  omega

theorem Cohort.Sound.refill {c : Cohort} (h : c.Sound) (usable : Nat) : (c.refill usable).Sound := by
  unfold Cohort.refill
  split
  · exact ⟨by dsimp only; omega, le_refl _⟩
  · exact h

end Sys2Proof.Machine
end

section
/-!
The accounts (R55 to R65) and the model's shared operations: each keeps a solvent state solvent.
-/
namespace Sys2Proof.Machine

/-! ## The shared operations -/

/-- What the accounts read. -/
theorem State.Solvent.congr {s t : State} (h : s.Solvent)
    (hk : (t.mod.mode = .halted ↔ s.mod.mode = .halted) ∧ t.mod.config = s.mod.config
      ∧ (∀ j, t.station j = s.station j) ∧ (∀ c, t.cohort c = s.cohort c)
      ∧ t.sel.groupBudget = s.sel.groupBudget ∧ t.sel.promptBudget = s.sel.promptBudget
      ∧ t.sel.groupAllot = s.sel.groupAllot ∧ t.sel.promptAllot = s.sel.promptAllot) : t.Solvent := by
  obtain ⟨k1, k2, k3, k4, k5, k6, k7, k8⟩ := hk
  refine ⟨k2 ▸ h.config, fun i hi => ?_, fun c hc => k4 c ▸ h.cohorts c hc, ?_⟩
  · rw [k3, k2, propext k1]; exact h.stations i hi
  · unfold Sel.Sound; rw [k5, k6, k7, k8]; exact h.sel

/-- A change of station records alone. -/
theorem State.Solvent.of_stations {s t : State} (h : s.Solvent)
    (hk : t.mod.mode = s.mod.mode ∧ t.mod.config = s.mod.config ∧ (∀ c, t.cohort c = s.cohort c)
      ∧ t.sel.groupBudget = s.sel.groupBudget ∧ t.sel.promptBudget = s.sel.promptBudget
      ∧ t.sel.groupAllot = s.sel.groupAllot ∧ t.sel.promptAllot = s.sel.promptAllot)
    (hs : ∀ j, j < 512 → (s.station j).Sound s.mod.config (s.mod.mode = .halted) j →
      (t.station j).Sound s.mod.config (s.mod.mode = .halted) j) : t.Solvent := by
  obtain ⟨k1, k2, k4, k5, k6, k7, k8⟩ := hk
  refine ⟨k2 ▸ h.config, fun i hi => ?_, fun c hc => k4 c ▸ h.cohorts c hc, ?_⟩
  · rw [k2, k1]; exact hs i hi (h.stations i hi)
  · unfold Sel.Sound; rw [k5, k6, k7, k8]; exact h.sel

theorem State.Solvent.updStation {s : State} (h : s.Solvent) (i : Nat) (f : Station → Station)
    (hf : ∀ x : Station, x.Sound s.mod.config (s.mod.mode = .halted) i →
      (f x).Sound s.mod.config (s.mod.mode = .halted) i) : (s.updStation i f).Solvent := by
  refine h.of_stations (by simp) fun j _ hx => ?_
  rw [updStation_station]
  split
  · rename_i e; rw [← e.1] at hx ⊢; exact hf _ hx
  · exact hx

theorem State.Solvent.updCohort {s : State} (h : s.Solvent) (n : Nat) (f : Cohort → Cohort)
    (hf : ∀ c : Cohort, c.Sound → (f c).Sound) : (s.updCohort n f).Solvent := by
  refine ⟨h.config, h.stations, fun c hc => ?_, h.sel⟩
  rw [updCohort_cohort]
  split
  · exact hf _ (h.cohorts c hc)
  · exact h.cohorts c hc

/-- A change of every station record. -/
theorem State.Solvent.mapStations {s : State} (h : s.Solvent) (g : Stt → Nat) (f : Nat → Station → Station)
    (hf : ∀ (i : Nat) (x : Station), x.Sound s.mod.config (s.mod.mode = .halted) i →
      (f i x).Sound s.mod.config (s.mod.mode = .halted) i) :
    (s.updStt fun t => { t with stations := t.stations.mapIdx f, radioIgnored := g t }).Solvent := by
  refine h.of_stations (by simp) fun j hj hx => ?_
  have : (s.updStt fun t => { t with stations := t.stations.mapIdx f, radioIgnored := g t }).station j
      = f j (s.station j) := by
    simp [State.station, Table.get_mapIdx, hj, Config.stationCount]
  rw [this]
  exact hf j _ hx

/-- A change of every cohort record. -/
theorem State.Solvent.mapCohorts {s : State} (h : s.Solvent) (f : Nat → Cohort → Cohort)
    (hf : ∀ (i : Nat) (c : Cohort), c.Sound → (f i c).Sound) :
    (s.updCoh fun t => { t with cohorts := t.cohorts.mapIdx f }).Solvent := by
  refine ⟨h.config, h.stations, fun c hc => ?_, h.sel⟩
  have : (s.updCoh fun t => { t with cohorts := t.cohorts.mapIdx f }).cohort c = f c (s.cohort c) := by
    simp [State.cohort, Table.get_mapIdx, hc, Config.cohortCount]
  rw [this]
  exact hf c _ (h.cohorts c hc)

/-- A change of the selector's budgets. -/
theorem State.Solvent.of_sel {s t : State} (h : s.Solvent)
    (hk : t.mod = s.mod ∧ (∀ j, t.station j = s.station j) ∧ ∀ c, t.cohort c = s.cohort c) (hs : t.sel.Sound) :
    t.Solvent := by
  obtain ⟨k1, k2, k3⟩ := hk
  refine ⟨k1 ▸ h.config, fun i hi => ?_, fun c hc => k3 c ▸ h.cohorts c hc, hs⟩
  rw [k2, k1]
  exact h.stations i hi

/-- No mode but HALTED is left or entered by a change from one mode to another of the rest. -/
theorem State.Solvent.setMode {s : State} (h : s.Solvent) {m : Mode} (h1 : s.mod.mode ≠ .halted) (h2 : m ≠ .halted) :
    (s.setMode m).Solvent := by
  have hm : (s.setMode m).mod.mode = m := by
    unfold State.setMode
    split
    · assumption
    · rfl
  exact h.congr (by simp [hm, h1, h2])

theorem State.Solvent.selectionRun {s : State} (h : s.Solvent) : s.selectionRun.Solvent :=
  h.congr (by simp)

theorem State.Solvent.countOrd {s : State} (h : s.Solvent) (f : OrdCounters → OrdCounters) : (s.countOrd f).Solvent :=
  h.congr (by simp)

/-! ## Lanes and frames -/

/-- An index above 511 has no record whose state a lane could change. -/
theorem laneNonempty_of_le (s : State) {i : Nat} (l : Lane) (hi : 512 ≤ i) : s.laneNonempty i l = s := by
  unfold State.laneNonempty
  rw [if_neg (by omega), station_of_le s hi]
  rfl

theorem laneEmpty_of_le (s : State) {i : Nat} (l : Lane) (hi : 512 ≤ i) : s.laneEmpty i l = s :=
  laneEmpty_same s i l (by omega) (by rw [station_of_le s hi]; simp [Station.cleared])
    (by rw [station_of_le s hi]; simp [Station.cleared])

theorem State.Solvent.laneNonempty {s : State} (h : s.Solvent) (i : Nat) (l : Lane) : (s.laneNonempty i l).Solvent := by
  by_cases hi : i < 512
  · refine h.of_stations (by simp) fun j _ hx => ?_
    rw [laneNonempty_station _ _ _ _ hi]
    split
    · rename_i e; exact hx.of_same rfl rfl rfl fun e0 => absurd e0 e.2.1
    · exact hx
  · rw [laneNonempty_of_le s l (by omega)]; exact h

theorem State.Solvent.laneEmpty {s : State} (h : s.Solvent) (i : Nat) (l : Lane) : (s.laneEmpty i l).Solvent := by
  by_cases hi : i < 512
  · refine h.of_stations (by simp) fun j _ hx => ?_
    rw [laneEmpty_station _ _ _ _ hi]
    split
    · rename_i e; exact hx.of_same rfl rfl rfl fun e0 => absurd (e.1 ▸ e0) e.2.1
    · exact hx
  · rw [laneEmpty_of_le s l (by omega)]; exact h

theorem State.Solvent.returnLane {s : State} (h : s.Solvent) (i : Nat) (x : FrameResult) (l : Lane) :
    (s.returnLane i x l).Solvent := by
  unfold State.returnLane
  split
  · exact h
  · exact State.Solvent.laneEmpty (h.congr (by simp)) i l

theorem State.Solvent.returnLanes {s : State} (h : s.Solvent) (i : Nat) (x : FrameResult) (ls : List Lane) :
    (s.returnLanes i x ls).Solvent := by
  induction ls generalizing s with
  | nil => exact h
  | cons l ls ih => exact ih (h.returnLane i x l)

theorem State.Solvent.flushAll {s : State} (h : s.Solvent) : s.flushAll.Solvent := by
  rw [flushAll_eq]
  generalize List.range 512 = is
  induction is generalizing s with
  | nil => exact h
  | cons i is ih => exact ih (h.returnLanes i _ _)

theorem State.Solvent.acceptFrame {s : State} (h : s.Solvent) (f : Frame) : (s.acceptFrame f).Solvent := by
  unfold State.acceptFrame
  dsimp only
  split
  · exact State.Solvent.laneNonempty (h.congr (by simp)) _ _
  · exact h.congr (by simp)

theorem State.Solvent.takeFrames {s : State} (h : s.Solvent) (i : Nat) (l : Lane) (n : Nat) :
    (s.takeFrames i l n).Solvent := by
  unfold State.takeFrames
  dsimp only
  split
  · exact State.Solvent.laneEmpty (h.congr (by simp)) i l
  · exact h.congr (by simp)

theorem State.Solvent.requeueFrames {s : State} (h : s.Solvent) (i : Nat) (l : Lane) (fs : List Frame) :
    (s.requeueFrames i l fs).Solvent := by
  unfold State.requeueFrames
  dsimp only
  split
  · exact h
  · split
    · exact State.Solvent.laneNonempty (h.congr (by simp)) _ _
    · exact h.congr (by simp)

theorem State.Solvent.returnFrames {s : State} (h : s.Solvent) (rs : List Returning) : (s.returnFrames rs).Solvent :=
  h.congr (by simp)

theorem State.Solvent.concludeFrames {s : State} (h : s.Solvent) (o : Order) (x : FrameResult) (fs : List Frame) :
    (s.concludeFrames o x fs).Solvent :=
  (h.requeueFrames _ _ _).returnFrames _

theorem State.Solvent.expireFrame {s : State} (h : s.Solvent) (r : ExpiryRef) : (s.expireFrame r).Solvent := by
  unfold State.expireFrame
  dsimp only
  split
  · exact h.congr (by simp)
  · split
    · exact State.Solvent.laneEmpty (h.congr (by simp)) _ _
    · exact h.congr (by simp)

/-! ## Orders -/

/-- A concluded order: station 0 is never LEAVING, so its record is never cleared (R8, R17). -/
theorem State.Solvent.lowerInFlight {s : State} (h : s.Solvent) (i : Nat) : (s.lowerInFlight i).Solvent := by
  refine h.of_stations (by simp) fun j _ hx => ?_
  rw [lowerInFlight_any]
  split
  · rename_i e
    exact .cleared _ _ _ fun e0 => (hx.group e0).2.2.2 e.2.1
  · exact hx.of_same rfl rfl rfl fun _ => ⟨rfl, rfl, rfl⟩

theorem State.Solvent.chargeStation {s : State} (h : s.Solvent) (hm : s.mod.mode ≠ .halted) (i est : Nat) :
    (s.chargeStation i est).Solvent :=
  h.updStation i _ fun _ hx => hx.of_clamped hm rfl rfl

theorem State.Solvent.correctStation {s : State} (h : s.Solvent) (hm : s.mod.mode ≠ .halted) (i : Nat) (d : Int) :
    (s.correctStation i d).Solvent :=
  h.updStation i _ fun _ hx => hx.of_clamped hm rfl rfl

theorem State.Solvent.chargeCohort {s : State} (h : s.Solvent) (c : Option Nat) (est : Nat) :
    (s.chargeCohort c est).Solvent := by
  unfold State.chargeCohort
  split
  · exact h
  · exact h.updCohort _ _ fun _ hc => chargeBudget_bounds est hc.2

theorem State.Solvent.correctCohort {s : State} (h : s.Solvent) (o : Order) (d : Int) : (s.correctCohort o d).Solvent := by
  unfold State.correctCohort
  split
  · exact h
  · split
    · exact h.updCohort _ _ fun _ _ => correctBudget_bounds _ _ _
    · exact h

theorem State.Solvent.chargeSelector {s : State} (h : s.Solvent) (k : Kind) (est : Nat) :
    (s.chargeSelector k est).Solvent := by
  unfold State.chargeSelector
  split
  · exact h.of_sel (by simp) ⟨h.sel.1, chargeBudget_bounds est h.sel.2.2⟩
  · exact h.of_sel (by simp) ⟨chargeBudget_bounds est h.sel.1.2, h.sel.2⟩
  all_goals exact h

theorem State.Solvent.correctSelector {s : State} (h : s.Solvent) (o : Order) (d : Int) :
    (s.correctSelector o d).Solvent := by
  have hp : (s.updSel fun e => { e with promptBudget := correctBudget e.promptBudget d e.promptAllot }).Solvent :=
    h.of_sel (by simp) ⟨h.sel.1, correctBudget_bounds _ _ _⟩
  unfold State.correctSelector
  split
  · dsimp only
    split
    · exact hp.congr (by simp)
    · exact h.congr (by simp)
  · split
    · exact h.of_sel (by simp) ⟨correctBudget_bounds _ _ _, h.sel.2⟩
    · exact h
  all_goals exact h

theorem State.Solvent.updateRate {s : State} (h : s.Solvent) (i q : Nat) : (s.updateRate i q).Solvent := by
  unfold State.updateRate
  split
  · exact h
  · rename_i e
    have h0 : i ≠ 0 := fun e0 => e (Or.inl e0)
    exact h.updStation i _ fun x hx => ⟨hx.floor, hx.ceiling, hx.cap, hx.halted, blendRate_bounds _ _,
      fun e0 => absurd e0 h0, fun e0 => absurd e0 h0⟩

/-- A change of a record's counters. -/
theorem State.Solvent.updCounters {s : State} (h : s.Solvent) (i : Nat) (f : Station → Station)
    (hf : ∀ x, (f x).balance = x.balance ∧ (f x).cap = x.cap ∧ (f x).rate = x.rate ∧ (f x).quantum = x.quantum
      ∧ (f x).cohort = x.cohort ∧ (f x).state = x.state) : (s.updStation i f).Solvent :=
  h.updStation i f fun x hx =>
    have ⟨h1, h2, h3, h4⟩ := hf x
    hx.of_same h1 h2 h3 fun _ => h4

/-- The issue of an order (R122). -/
theorem State.Solvent.issueOrder {s : State} (h : s.Solvent) (hm : s.mod.mode ≠ .halted) (c : Choice)
    (fs : List Frame) : (s.issueOrder c fs).Solvent := by
  unfold State.issueOrder
  dsimp only
  have h1 := (h.takeFrames c.station c.lane fs.length).chargeStation (by simpa using hm) c.station
    (estimate s.mod.config (s.orderRate c.station) fs)
  have h2 := (h1.chargeCohort (s.station c.station).cohort
    (estimate s.mod.config (s.orderRate c.station) fs)).chargeSelector c.kind
    (estimate s.mod.config (s.orderRate c.station) fs)
  have h3 := h2.updCounters c.station (fun x => { x with inFlight := x.inFlight + 1 }) fun _ => ⟨rfl, rfl, rfl, rfl, rfl, rfl⟩
  exact h3.congr (by simp [State.raiseInFlight])

theorem State.Solvent.buildOrder {s : State} (h : s.Solvent) (hm : s.mod.mode ≠ .halted) : s.buildOrder.Solvent := by
  unfold State.buildOrder State.buildChoice
  split
  · exact h
  · have hc : (s.updSel fun e => { e with choice := none }).Solvent := h.congr (by simp)
    refine State.Solvent.selectionRun ?_
    split
    · exact hc.congr (by simp)
    · exact hc.issueOrder (by simpa using hm) _ _

theorem State.Solvent.buildOrders {s : State} (h : s.Solvent) (hm : s.mod.mode ≠ .halted) (n : Nat) :
    (State.buildOrders n s).Solvent := by
  induction n generalizing s with
  | zero => exact h
  | succ n ih =>
    unfold State.buildOrders
    split
    · exact ih (h.buildOrder hm) (by simpa using hm)
    · exact h

/-- A choice that waits is followed through; none waits in HALTED (R104, R106). -/
theorem State.Solvent.settle {s : State} (h : s.Solvent) (hc : s.sel.choice ≠ none → s.mod.mode ≠ .halted) :
    s.settle.Solvent := by
  by_cases e : s.sel.choice = none
  · rw [settle_of_no_choice e]; exact h
  · exact (h.buildOrders (hc e) 8).congr (by simp [State.settle])

/-- An accepted outcome (R125). -/
theorem State.Solvent.acceptOutcome {s : State} (h : s.Solvent) (hm : s.mod.mode ≠ .halted) (o : Order) (x : Outcome) :
    (s.acceptOutcome o x).Solvent := by
  unfold State.acceptOutcome State.applyCorrection
  dsimp only
  have h1 := ((((h.correctStation hm o.station ((o.est : Int) - x.airtime)).correctCohort o
    ((o.est : Int) - x.airtime)).correctSelector o ((o.est : Int) - x.airtime)).updateRate o.station x.finalRate)
  generalize State.updateRate _ _ _ = t at *
  have h2 : (t.returnFrames (withResult (splitFrames o x).1 .delivered)).Solvent := h1.congr (by simp)
  have h3 := (h2.concludeFrames o .failed (splitFrames o x).2).updCounters o.station
    (fun y => { y with
      delivered := satAdd y.delivered (splitFrames o x).1.length
      failed := satAdd y.failed (splitFrames o x).2.length }) fun _ => ⟨rfl, rfl, rfl, rfl, rfl, rfl⟩
  exact (h3.lowerInFlight o.station).congr (by simp [State.removeOrder, State.countFrames])

/-- A timed-out order corrects nothing (R66, R131). -/
theorem State.Solvent.loseOrder {s : State} (h : s.Solvent) (o : Order) : (s.loseOrder o).Solvent := by
  unfold State.loseOrder
  dsimp only
  have h1 : ((s.removeOrder o.id).quarantineId o.id).Solvent := h.congr (by simp)
  have h2 := (h1.concludeFrames o .lost o.frames).updCounters o.station
    (fun y => { y with failed := satAdd y.failed o.frames.length }) fun _ => ⟨rfl, rfl, rfl, rfl, rfl, rfl⟩
  exact (h2.lowerInFlight o.station).congr (by simp [State.countLost])

theorem State.Solvent.cancelOrder {s : State} (h : s.Solvent) (o : Order) : (s.cancelOrder o).Solvent := by
  unfold State.cancelOrder
  dsimp only
  have h1 : (((s.removeOrder o.id).quarantineId o.id).returnFrames (withResult o.frames .aborted)).Solvent :=
    h.congr (by simp)
  exact (h1.lowerInFlight o.station).congr (by simp)

theorem State.Solvent.cancelOrders {s : State} (h : s.Solvent) : s.cancelOrders.Solvent := by
  unfold State.cancelOrders
  refine State.Solvent.congr (s := s.ord.outstanding.foldl State.cancelOrder s) ?_ (by simp)
  generalize s.ord.outstanding = os
  induction os generalizing s with
  | nil => exact h
  | cons o os ih => exact ih (h.cancelOrder o)

/-! ## Modes and rounds -/

theorem State.Solvent.recomputeMembership {s : State} (h : s.Solvent) : s.recomputeMembership.Solvent :=
  h.mapStations Stt.radioIgnored _ fun i x hx => ⟨hx.floor, hx.ceiling, hx.cap, hx.halted, hx.rate,
    fun e => have ⟨g1, g2, _, g4⟩ := hx.group e; ⟨g1, g2, by simp [memberOf, e], g4⟩, hx.groupRate⟩

theorem State.Solvent.membershipAfter {s : State} (h : s.Solvent) (b : Coh) : (s.membershipAfter b).Solvent := by
  unfold State.membershipAfter
  split
  · exact h
  · exact h.recomputeMembership

theorem State.Solvent.applyStagedStations {s : State} (h : s.Solvent) : s.applyStagedStations.Solvent :=
  h.mapStations Stt.radioIgnored _ fun _ _ hx => hx.of_same rfl rfl rfl fun _ => ⟨rfl, rfl, rfl⟩

theorem State.Solvent.applyStagedCohorts {s : State} (h : s.Solvent) : s.applyStagedCohorts.Solvent :=
  (h.mapCohorts (fun _ c => c.applyStaged) fun _ _ hc => hc).membershipAfter _

/-- The entry to READY (R165, R166). -/
theorem State.Solvent.enterReady {s : State} (h : s.Solvent) (hm : s.mod.mode ≠ .halted) : s.enterReady.Solvent := by
  have h1 : s.stopClocks.Solvent := h.congr (by simp)
  exact h1.applyStagedStations.applyStagedCohorts.setMode (by simpa using hm) (by simp)

theorem State.Solvent.reportEmpty {s : State} (h : s.Solvent) : s.reportEmpty.Solvent := by
  unfold State.reportEmpty
  split
  · rename_i e; exact h.enterReady (by simp [e.1])
  · exact h

/-- A change of the quiet-cause set moves the mode between RUNNING and QUIET alone (R154). -/
theorem State.Solvent.setCauses {s : State} (h : s.Solvent) (q : QuietCauses) : (s.setCauses q).Solvent := by
  have hm : (s.mod.quietSet q).mode = .halted ↔ s.mod.mode = .halted := by
    unfold Mod.quietSet
    cases hm : s.mod.mode <;> split_ifs <;> simp_all
  have hq : ({ s with mod := s.mod.quietSet q } : State).Solvent :=
    h.congr ⟨hm, quietSet_config _ _, fun _ => rfl, fun _ => rfl, rfl, rfl, rfl, rfl⟩
  rw [setCauses_eq]
  split
  · exact hq.selectionRun
  · exact hq

theorem State.Solvent.requestLink {s : State} (h : s.Solvent) : s.requestLink.Solvent := by
  unfold State.requestLink State.raiseLink
  split
  · split
    · exact h
    · exact State.Solvent.setCauses (h.congr (by simp)) _
  · exact h

/-- The figures of a new round (R19, R53 to R59, R89). -/
theorem State.Solvent.beginRound {s : State} (h : s.Solvent) (hm : s.mod.mode ≠ .halted) : s.beginRound.Solvent := by
  have h1 : s.clearStationUsage.Solvent :=
    h.mapStations Stt.radioIgnored _ fun _ _ hx => hx.of_same rfl rfl rfl fun _ => ⟨rfl, rfl, rfl⟩
  have h2 : s.clearStationUsage.clearCohortUsage.Solvent := h1.mapCohorts _ fun _ _ hc => hc
  have h3 : (beforeFigures s).Solvent := h2.applyStagedStations.applyStagedCohorts
  rw [beginRound_eq]
  generalize hb : beforeFigures s = b at *
  have hbm : b.mod.mode ≠ .halted := by rw [← hb]; simpa using hm
  unfold State.formFigures
  dsimp only
  have h4 := h3.mapStations Stt.radioIgnored (fun i x => x.refill b.mod.config
    (poolOf b.mod.config (usableAirtime b.mod.config b.sampleFree)) b.weightSum (decide (i ∈ b.sel.active)) i)
    fun _ _ hx => hx.refill hbm h3.config _ _ _
  have h5 := h4.mapCohorts (fun _ c => c.refill (usableAirtime b.mod.config b.sampleFree)) fun _ _ hc => hc.refill _
  exact h5.of_sel ⟨rfl, fun _ => rfl, fun _ => rfl⟩
    ⟨⟨by simp only [updRck_sel, updSel_sel]; omega, by simp⟩, h5.sel.2⟩

theorem State.Solvent.beginPromptPeriod {s : State} (h : s.Solvent) : s.beginPromptPeriod.Solvent :=
  h.of_sel (by simp) ⟨h.sel.1, by simp [State.beginPromptPeriod]⟩

theorem State.Solvent.makeRoundBoundary {s : State} (h : s.Solvent) (hm : s.mod.mode ≠ .halted) :
    s.makeRoundBoundary.Solvent := by
  have h1 : s.closeRound.advanceRound.Solvent := h.congr (by simp)
  have h2 := h1.beginRound (by simpa using hm)
  unfold State.makeRoundBoundary
  refine State.Solvent.selectionRun ?_
  split
  · exact State.Solvent.beginPromptPeriod (h2.congr (by simp))
  · exact h2

theorem State.Solvent.makePromptBoundary {s : State} (h : s.Solvent) : s.makePromptBoundary.Solvent :=
  State.Solvent.selectionRun (State.Solvent.beginPromptPeriod (h.congr (by simp)))

end Sys2Proof.Machine
end

section
/-!
StepKeepsTheAccounts: the accounts through the owners' decisions, the records the RLI delivers and the part's own
events, and so through every step.
-/
namespace Sys2Proof.Machine

/-! ## The decisions of MOD -/

/-- The record a CONFIGURE is accepted with lies in the ranges (R159, R160). -/
theorem toConfiguration_inRanges {r : RawConfiguration} (h : r.useDefaults = true ∨ r.valid = true) :
    r.toConfiguration.inRanges = true := by
  unfold RawConfiguration.toConfiguration
  split
  · decide
  · have hv := h.resolve_left ‹_›
    simp only [RawConfiguration.valid, Bool.and_eq_true] at hv
    simp only [Configuration.inRanges, Bool.and_eq_true]
    tauto

/-- CONFIGURE in HALTED: every balance is 0 there, whatever the new bounds (R2, R21, R161). -/
theorem State.Solvent.leaveHalted {s : State} (h : s.Solvent) (hm : s.mod.mode = .halted) {cfg : Configuration}
    (hc : cfg.inRanges = true) : (s.writeConfiguration cfg).leaveHalted.Solvent := by
  obtain ⟨h5, h6, -⟩ := inRanges_accounts hc
  have hmode : (s.writeConfiguration cfg).leaveHalted.mod.mode = .ready := by
    simp [State.leaveHalted, State.setMode, hm]
  have hcfg : (s.writeConfiguration cfg).leaveHalted.mod.config = cfg := by simp [State.writeConfiguration]
  refine ⟨by rw [hcfg]; exact hc, fun i hi => ?_, by simpa using h.cohorts, by simpa using h.sel⟩
  have hx := h.stations i hi
  have hst : (s.writeConfiguration cfg).leaveHalted.station i
      = if i = 0 then (s.station 0).groupStation cfg else s.station i := by
    by_cases h0 : i = 0
    · subst h0; simp [State.leaveHalted, State.writeConfiguration]
    · simp [State.leaveHalted, updStation_station, h0, Ne.symm h0]
  rw [hst, hmode, hcfg]
  by_cases h0 : i = 0
  · subst h0
    rw [if_pos rfl]
    exact ⟨by simp [Station.groupStation], by simp [Station.groupStation], by dsimp only [Station.groupStation]; omega,
      fun _ => rfl, h6, fun _ => ⟨rfl, rfl, (hx.group rfl).2.2.1, by simp [Station.groupStation]⟩, fun _ _ => ⟨rfl, rfl⟩⟩
  · rw [if_neg h0]
    have hb := hx.halted hm
    have := hx.ceiling
    exact ⟨by omega, by omega, hx.cap, fun _ => hb, hx.rate, fun e => absurd e h0, fun e => absurd e h0⟩

/-- CONFIGURE in READY (R20). -/
theorem State.Solvent.reclampStations {s : State} (h : s.Solvent) (hm : s.mod.mode ≠ .halted) {cfg : Configuration}
    (hc : cfg.inRanges = true) : (s.writeConfiguration cfg).reclampStations.Solvent := by
  have hmode : (s.writeConfiguration cfg).reclampStations.mod.mode = s.mod.mode := by simp
  have hcfg : (s.writeConfiguration cfg).reclampStations.mod.config = cfg := rfl
  refine ⟨hcfg ▸ hc, fun i hi => ?_, by simpa using h.cohorts, by simpa using h.sel⟩
  have hst : (s.writeConfiguration cfg).reclampStations.station i = (s.station i).reclamp cfg i := by
    simp [State.reclampStations, State.station, Table.get_mapIdx, hi, Config.stationCount, State.writeConfiguration]
  rw [hst, hmode, hcfg]
  exact (h.stations i hi).reclamp hm hc

theorem State.Solvent.decideConfigure {s : State} (h : s.Solvent) (b : List Byte) : (decideConfigure s b).1.Solvent := by
  have key : ∀ u : State, ((parseConfigure b).toConfiguration.inRanges = true → u.Solvent) →
      (if !(parseConfigure b).useDefaults && !(parseConfigure b).valid then refuse s .badRange
        else if s.fpl.freeEntries ≠ Config.frameEntries then refuse s .badState else accept u).1.Solvent := by
    intro u hu
    split
    · exact h
    · rename_i hr
      split
      · exact h
      · refine hu (toConfiguration_inRanges ?_)
        revert hr
        cases (parseConfigure b).useDefaults <;> simp
  unfold Machine.decideConfigure
  dsimp only
  split
  iterate 3 exact h
  · rename_i hm
    rw [if_pos hm]
    exact key _ (h.leaveHalted hm)
  · rename_i hm
    have hn : s.mod.mode ≠ .halted := by simp [hm]
    simp only [hn, if_false]
    exact key _ (h.reclampStations hn)

theorem State.Solvent.boundaryZero {s : State} (h : s.Solvent) (hm : s.mod.mode ≠ .halted) : s.boundaryZero.Solvent :=
  have h1 : (s.updRck fun r =>
      { r with
        clocksRunning := true
        round := 0
        lastRoundAt := s.rck.deviceTime
        nextRoundAt := deadlineAfter s.rck.deviceTime s.mod.config.roundUs
        promptPeriod := 0
        nextPromptAt := deadlineAfter s.rck.deviceTime s.mod.config.promptPeriodUs
        postscaler := 0 }).Solvent := h.congr (by simp)
  (h1.beginRound hm).beginPromptPeriod

theorem State.Solvent.decideStart {s : State} (h : s.Solvent) (b : List Byte) : (decideStart s b).1.Solvent := by
  unfold Machine.decideStart
  split
  · rename_i hm
    have h1 : (s.updMgd fun g => { g with freeNow := s.mod.config.freeInitialPm }).Solvent := h.congr (by simp)
    refine State.Solvent.selectionRun (State.Solvent.setMode (h1.boundaryZero (by simp [hm])) (by simp [hm]) ?_)
    split <;> simp
  all_goals exact h

theorem State.Solvent.decideStop {s : State} (h : s.Solvent) (b : List Byte) : (decideStop s b).1.Solvent := by
  have key : s.mod.mode ≠ .halted →
      (if s.ord.outstanding.isEmpty then s.enterReady else s.setMode .draining).Solvent := by
    intro hm
    split
    · exact h.enterReady hm
    · exact h.setMode hm (by simp)
  unfold Machine.decideStop
  split
  iterate 2 · rename_i hm; exact key (by simp [hm])
  all_goals exact h

theorem State.Solvent.decideAbort {s : State} (h : s.Solvent) (b : List Byte) : (decideAbort s b).1.Solvent := by
  have key : s.mod.mode ≠ .halted → s.cancelOrders.enterReady.Solvent := fun hm => h.cancelOrders.enterReady (by simpa using hm)
  unfold Machine.decideAbort
  split
  iterate 3 · rename_i hm; exact key (by simp [hm])
  all_goals exact h

theorem State.Solvent.softResetMode {s : State} (h : s.Solvent) (hm : s.mod.mode ≠ .halted) :
    s.softResetMode.Solvent := by
  unfold State.softResetMode
  dsimp only
  refine State.Solvent.setMode ?_ (by split <;> simpa using hm) (by simp)
  split <;> exact h.congr (by simp)

theorem State.Solvent.softResetStations {s : State} (h : s.Solvent) : s.softResetStations.Solvent :=
  h.mapStations (fun _ => 0) (fun _ x => x.softReset s.mod.config) fun _ _ hx => hx.softReset h.config

theorem State.Solvent.softResetCohorts {s : State} (h : s.Solvent) : s.softResetCohorts.Solvent :=
  h.mapCohorts (fun _ c => { c with stagedSpan := none, stagedCapPm := none, usedRound := 0 }) fun _ _ hc => hc

theorem State.Solvent.softResetBlocks {s : State} (h : s.Solvent) (hm : s.mod.mode ≠ .halted) :
    s.softResetBlocks.Solvent := by
  have h1 : s.softResetStations.clearSelectorLists.Solvent := h.softResetStations.congr (by simp)
  unfold State.softResetBlocks
  exact State.Solvent.softResetMode (h1.softResetCohorts.congr (by simp)) (by simpa using hm)

/-- The soft reset of the part (R21, R167). -/
theorem State.Solvent.softReset {s : State} (h : s.Solvent) (hm : s.mod.mode ≠ .halted) : s.softReset.Solvent := by
  have h0 : (s.updOrd fun o => { o with quarantine := [] }).Solvent := h.congr (by simp)
  have h1 : s.softResetOrders.Solvent := h0.cancelOrders.congr (by simp [State.softResetOrders])
  exact h1.flushAll.softResetBlocks (by simpa using hm)

theorem State.Solvent.decideReset {s : State} (h : s.Solvent) (b : List Byte) : (decideReset s b).1.Solvent := by
  unfold Machine.decideReset
  split
  · exact h
  all_goals
    rename_i hm
    dsimp only [accept]
    exact h.softReset (by simp [hm])

theorem State.Solvent.decideQuiet {s : State} (h : s.Solvent) (b : List Byte) : (decideQuiet s b).1.Solvent := by
  unfold Machine.decideQuiet
  split
  · exact h
  all_goals exact h.setCauses _

theorem State.Solvent.decideResume {s : State} (h : s.Solvent) (b : List Byte) : (decideResume s b).1.Solvent := by
  unfold Machine.decideResume
  split
  · exact h
  all_goals exact h.setCauses _

/-! ## The decisions of STT, FPL and COH -/

theorem State.Solvent.formNote {s : State} (h : s.Solvent) (n : LinkNote) : (s.formNote n).Solvent :=
  h.congr (by simp)

theorem State.Solvent.decideQuery {s : State} (h : s.Solvent) (b : List Byte) : (decideQuery s b).1.Solvent := by
  unfold Machine.decideQuery
  dsimp only
  split_ifs
  · exact h
  · split
    · exact h
    · split <;> exact h

theorem State.Solvent.decideAdmit {s : State} (h : s.Solvent) (b : List Byte) : (decideAdmit s b).1.Solvent := by
  unfold Machine.decideAdmit
  dsimp only
  split
  · exact h
  split
  · exact h
  rename_i hr
  split
  · exact h
  rename_i h0
  split
  · exact h
  split
  · exact h
  refine State.Solvent.formNote (h.updStation _ _ fun x _ => .admitted _ _ x _ h0 h.config ?_) _
  revert hr
  simp [inRange, Config.minRate, Config.maxRate]
  tauto

/-- A released station, never station 0, is cleared or becomes LEAVING (R7). -/
theorem State.Solvent.releaseStation {s : State} (h : s.Solvent) {i : Nat} (h0 : i ≠ 0) :
    (s.releaseStation i).Solvent := by
  have h1 : (s.removeFromLists i).Solvent := h.congr (by simp)
  have h2 : ((s.removeFromLists i).updStation i fun x => { x with stagedWeight := none, stagedHold := none }).Solvent :=
    h1.updCounters i _ fun _ => ⟨rfl, rfl, rfl, rfl, rfl, rfl⟩
  unfold State.releaseStation
  dsimp only
  split
  · exact State.Solvent.formNote (h2.updStation i _ fun _ _ => .cleared _ _ _ h0) _
  · exact h2.updStation i _ fun _ hx => hx.of_same rfl rfl rfl fun e => absurd e h0

/-- SET_WEIGHT, HOLD and RELEASE never name station 0 (R7, R9, R10). -/
theorem admittedClient_ne_zero {s : State} {i : Nat} (h : s.admittedClient i = true) : i ≠ 0 := by
  rintro rfl
  simp [State.admittedClient] at h

theorem State.Solvent.decideRelease {s : State} (h : s.Solvent) (b : List Byte) : (decideRelease s b).1.Solvent := by
  unfold Machine.decideRelease
  dsimp only
  split
  · exact h
  split
  · exact h
  split
  · exact h
  rename_i ha
  exact (h.releaseStation (admittedClient_ne_zero (by simpa using ha))).returnLanes _ _ _

theorem State.Solvent.decideSetWeight {s : State} (h : s.Solvent) (b : List Byte) : (decideSetWeight s b).1.Solvent := by
  unfold Machine.decideSetWeight
  dsimp only
  split
  · exact h
  split
  · exact h
  split
  · exact h
  refine h.updCounters _ _ fun x => ?_
  split <;> exact ⟨rfl, rfl, rfl, rfl, rfl, rfl⟩

theorem State.Solvent.decideHold {s : State} (h : s.Solvent) (b : List Byte) : (decideHold s b).1.Solvent := by
  have key : ∀ i v, (s.applyHold i v).Solvent := by
    intro i v
    have hu := h.updCounters i (fun x => { x with held := v, stagedHold := none }) fun _ => ⟨rfl, rfl, rfl, rfl, rfl, rfl⟩
    unfold State.applyHold
    dsimp only
    split
    · exact hu.selectionRun
    · exact hu
  unfold Machine.decideHold
  dsimp only
  split
  · exact h
  split
  · exact h
  split
  · exact h
  dsimp only [accept]
  split
  · exact key _ _
  · exact h.updCounters _ _ fun _ => ⟨rfl, rfl, rfl, rfl, rfl, rfl⟩

theorem State.Solvent.offerFrame {s : State} (h : s.Solvent) (f : FrameFields) : (s.offerFrame f).1.Solvent := by
  unfold State.offerFrame
  split
  · exact h.congr (by simp)
  · exact h.acceptFrame _

theorem State.Solvent.offerFrames {s : State} (h : s.Solvent) (fs : List FrameFields) : (State.offerFrames fs s).1.Solvent := by
  induction fs generalizing s with
  | nil => exact h
  | cons f fs ih =>
    exact ih (h.offerFrame f)

theorem State.Solvent.decideEnqueue {s : State} (h : s.Solvent) (b : List Byte) : (decideEnqueue s b).1.Solvent := by
  unfold Machine.decideEnqueue
  split
  · exact h
  split
  · exact h
  dsimp only
  split
  · exact (h.offerFrames _).selectionRun
  · exact h.offerFrames _

theorem State.Solvent.decideFlush {s : State} (h : s.Solvent) (b : List Byte) : (decideFlush s b).1.Solvent := by
  unfold Machine.decideFlush
  dsimp only
  split
  · exact h
  split
  · exact h
  split
  · exact h
  split
  · exact h
  · exact h.returnLanes _ _ _

theorem State.Solvent.decideSetCohort {s : State} (h : s.Solvent) (b : List Byte) : (decideSetCohort s b).1.Solvent := by
  unfold Machine.decideSetCohort
  dsimp only
  split
  · exact h
  split
  · exact h
  split
  · exact h
  split
  · exact h
  split
  · exact (h.updCohort _ (Cohort.change _) fun _ hc => hc).membershipAfter _
  · exact h.updCohort _ _ fun _ hc => hc

/-- Every owner's decision keeps the accounts. -/
theorem State.Solvent.decision {s : State} (h : s.Solvent) (c : Command) (b : List Byte) :
    (c.decision s b).1.Solvent := by
  cases c with
  | configure => exact h.decideConfigure b
  | start => exact h.decideStart b
  | stop => exact h.decideStop b
  | abort => exact h.decideAbort b
  | reset => exact h.decideReset b
  | quiet => exact h.decideQuiet b
  | resume => exact h.decideResume b
  | status => exact h
  | admitStation => exact h.decideAdmit b
  | release => exact h.decideRelease b
  | setWeight => exact h.decideSetWeight b
  | hold => exact h.decideHold b
  | enqueue => exact h.decideEnqueue b
  | flush => exact h.decideFlush b
  | setCohort => exact h.decideSetCohort b
  | query => exact h.decideQuery b

end Sys2Proof.Machine
end

section
/-!
The accounts and the rows of the table: every record, deadline and radio event keeps them, and with them every step.
-/
namespace Sys2Proof.Machine

/-! ## The records that the RLI delivers -/

theorem State.Solvent.takeOutcome {s : State} (h : s.Solvent) (hm : s.ord.outstanding ≠ [] → s.mod.mode ≠ .halted)
    (x : Outcome) : (s.takeOutcome x).Solvent := by
  unfold State.takeOutcome
  split
  · rename_i hf
    have ho := hm (List.ne_nil_of_mem (List.mem_of_find?_eq_some hf))
    exact (h.acceptOutcome ho _ x).reportEmpty.selectionRun
  · split <;> exact h.congr (by simp)

theorem State.Solvent.takeReport {s : State} (h : s.Solvent) (pm : Nat) : (s.takeReport pm).Solvent := by
  unfold State.takeReport
  split <;> exact h.congr (by simp)

theorem State.Solvent.restartBlanking {s : State} (h : s.Solvent) : s.restartBlanking.Solvent :=
  h.congr (by simp)

theorem State.Solvent.takeAlert {s : State} (h : s.Solvent) (c : AlertCause) : (s.takeAlert c).Solvent := by
  have h1 : (s.fillCapture c).Solvent := h.congr (by simp)
  have h2 := (h1.setCauses { (s.fillCapture c).mod.causes with medium := true }).restartBlanking
  exact h2.congr (by simp [State.takeAlert])

theorem State.Solvent.takeClear {s : State} (h : s.Solvent) : s.takeClear.Solvent :=
  (h.setCauses _).restartBlanking

theorem State.Solvent.takeMedium {s : State} (h : s.Solvent) {f : State → State} (hf : (f s).Solvent) :
    (State.takeMedium f s).Solvent := by
  unfold State.takeMedium
  split
  · exact h.congr (by simp)
  · exact hf

/-- DOZE, WAKE and POLL are taken of client stations alone (R12 to R15). -/
theorem awakeOrDozing_ne_zero {s : State} {i : Nat} {x : StationState} (h : s.awakeOrDozing i = some x) : i ≠ 0 := by
  rintro rfl
  simp [State.awakeOrDozing] at h

theorem State.Solvent.takeDoze {s : State} (h : s.Solvent) (i : Nat) : (s.takeDoze i).Solvent := by
  unfold State.takeDoze
  split
  · exact h.congr (by simp)
  · exact h
  · rename_i hx
    have h1 : (s.setStationState i .dozing).Solvent :=
      h.updStation i _ fun _ hx' => hx'.of_same rfl rfl rfl fun e => absurd e (awakeOrDozing_ne_zero hx)
    exact h1.congr (by simp)

theorem State.Solvent.resumeAs {s : State} (h : s.Solvent) {i : Nat} (h0 : i ≠ 0) (x : StationState) :
    (s.resumeAs i x).Solvent :=
  h.updStation i _ fun _ hx => hx.of_same rfl rfl rfl fun e => absurd e h0

theorem State.Solvent.endDoze {s : State} (h : s.Solvent) {i : Nat} (h0 : i ≠ 0) : (s.endDoze i).Solvent := by
  have h1 : (s.removePoll i).Solvent := h.congr (by simp)
  unfold State.endDoze
  dsimp only
  split
  · exact h1.resumeAs h0 _
  · split <;> exact (h1.resumeAs h0 .backlogged).congr (by simp)

theorem State.Solvent.takeWake {s : State} (h : s.Solvent) (i : Nat) : (s.takeWake i).Solvent := by
  unfold State.takeWake
  split
  · exact h.congr (by simp)
  · rename_i hx; exact (h.endDoze (awakeOrDozing_ne_zero hx)).selectionRun
  · exact h

theorem State.Solvent.takePoll {s : State} (h : s.Solvent) (i : Nat) : (s.takePoll i).Solvent := by
  have hg : (s.grantPoll i).Solvent := by
    unfold State.grantPoll
    split <;> exact h.congr (by simp)
  unfold State.takePoll
  split
  · exact h.congr (by simp)
  · exact hg
  · exact h

/-! ## The links' own operations -/

/-- The accounts stand in the station and cohort tables, the selector and MOD's mode and record alone. -/
theorem State.Solvent.of_books {s t : State} (h : s.Solvent) (h1 : t.stt.stations = s.stt.stations)
    (h2 : t.coh = s.coh) (h3 : t.sel = s.sel) (h4 : t.mod.mode = s.mod.mode) (h5 : t.mod.config = s.mod.config) :
    t.Solvent :=
  h.congr (by simp [State.station, State.cohort, h1, h2, h3, h4, h5])

theorem State.Solvent.takeDirection {s : State} (h : s.Solvent) (b : Byte) : (s.takeDirection b).Solvent := by
  unfold State.takeDirection
  split <;> exact h.of_books rfl rfl rfl rfl rfl

theorem State.Solvent.endWrite {s : State} (h : s.Solvent) (b : List Byte) : (s.endWrite b).Solvent := by
  unfold State.endWrite
  split <;> exact h.of_books rfl rfl rfl rfl rfl

theorem State.Solvent.endRead {s : State} (h : s.Solvent) (n : Nat) : (s.endRead n).Solvent := by
  unfold State.endRead
  split <;> exact h.of_books rfl rfl rfl rfl rfl

theorem State.Solvent.endIdle {s : State} (h : s.Solvent) (n : Nat) : (s.endIdle n).Solvent := by
  unfold State.endIdle
  split <;> exact h.of_books rfl rfl rfl rfl rfl

theorem State.Solvent.formTokenReturn {s : State} (h : s.Solvent) : s.formTokenReturn.Solvent := by
  unfold State.formTokenReturn
  split <;> exact h.of_books rfl rfl rfl rfl rfl

theorem State.Solvent.formAlert {s : State} (h : s.Solvent) : s.formAlert.Solvent := by
  unfold State.formAlert
  split <;> exact h.of_books rfl rfl rfl rfl rfl

theorem State.Solvent.endPulse {s : State} (h : s.Solvent) : s.endPulse.Solvent := by
  unfold State.endPulse
  split <;> exact h.of_books rfl rfl rfl rfl rfl

theorem State.Solvent.endRecord {s : State} (h : s.Solvent) (b : List Byte) (c : Bool) : (s.endRecord b c).Solvent := by
  unfold State.endRecord
  split <;> exact h.of_books rfl rfl rfl rfl rfl

theorem State.Solvent.startRecord {s : State} (h : s.Solvent) (b : List Byte) : (s.startRecord b).Solvent := by
  unfold State.startRecord
  dsimp only
  split <;> exact (h.endRecord b false).of_books rfl rfl rfl rfl rfl

theorem State.Solvent.beginSending {s : State} (h : s.Solvent) (b : Bool) : (s.beginSending b).Solvent := by
  unfold State.beginSending
  split <;> exact h.of_books rfl rfl rfl rfl rfl

theorem State.Solvent.finishSending {s : State} (h : s.Solvent) : s.finishSending.Solvent := by
  unfold State.finishSending
  split
  · exact h
  · split <;> exact h.of_books rfl rfl rfl rfl rfl

theorem State.Solvent.giveCancel {s : State} (h : s.Solvent) : s.giveCancel.Solvent := by
  unfold State.giveCancel
  split <;> exact h.of_books rfl rfl rfl rfl rfl

theorem State.Solvent.giveNotes {s : State} (h : s.Solvent) (n : Nat) : (s.giveNotes n).Solvent :=
  h.of_books rfl rfl rfl rfl rfl

theorem State.Solvent.giveOrders {s : State} (h : s.Solvent) (n : Nat) : (s.giveOrders n).Solvent :=
  h.congr (by simp)

theorem State.Solvent.expireBlanking {s : State} (h : s.Solvent) : s.expireBlanking.Solvent := by
  unfold State.expireBlanking
  split <;> exact h.of_books rfl rfl rfl rfl rfl

/-! ## Every command of the table -/

theorem State.Solvent.popInbound {s : State} (h : s.Solvent) : s.popInbound.Solvent :=
  h.congr (by simp [State.popInbound])

theorem State.Solvent.pushOut {s : State} (h : s.Solvent) (x : OutRecord) : (s.pushOut x).Solvent :=
  h.congr (by simp)

theorem State.Solvent.reformAttn {s : State} (h : s.Solvent) (b : Option AttnMode) : (s.reformAttn b).Solvent :=
  h.congr (by simp)

/-- The pin-reset values' accounts (R2, R62, R159). -/
theorem pinResetValues_solvent (asserted : Bool) : (State.pinResetValues asserted).Solvent := by
  have hd : Configuration.default.inRanges = true := by decide
  have he : Sel.pinReset.Sound := by unfold Sel.Sound; decide
  refine ⟨hd, fun i hi => ?_, fun c hc => ?_, he⟩
  · have hx : (State.pinResetValues asserted).station i = .cleared none := by
      simp [State.station, State.pinResetValues, Stt.pinReset]
    rw [hx]
    exact ⟨by simp [Station.cleared], by simp [Station.cleared], by simp [Station.cleared], fun _ => rfl,
      by simp [Station.cleared], fun _ => by simp [Station.cleared], fun _ hp => absurd rfl hp⟩
  · have hx : (State.pinResetValues asserted).cohort c = .pinReset := by
      simp [State.cohort, State.pinResetValues, Coh.pinReset]
    rw [hx]
    exact ⟨by simp [Cohort.pinReset], by simp [Cohort.pinReset]⟩

/-- What the accounts ask of the part at the start of a step. -/
structure State.Accountable (s : State) : Prop where
  solvent : s.Solvent
  choice : s.sel.choice ≠ none → s.mod.mode ≠ .halted
  orders : s.ord.outstanding ≠ [] → s.mod.mode ≠ .halted
  clocks : s.rck.clocksRunning = true → s.mod.mode ≠ .halted

theorem accountable_of_invariants {s : State} (hm : s.ModeInv) (ho : s.OrderInv) (hl : s.ListInv)
    (ha : s.AccountInv) : s.Accountable where
  solvent := solvent_of_invariants hm hl ha
  choice hc := by simp [(ho.choice hc).1]
  orders hn he := hn (ho.stopped (.inl he))
  clocks hc := by rcases hm.clocks.1 hc with h | h | h <;> simp [h]

/-- What the row of a host command does, with RESET_N asserted or released. -/
theorem exec_event (c : Command) (s : State) :
    exec c.event s = s.whenReleased fun s =>
      if c = .configure then (s.dispatch c c.decision).reformAttn s.mod.attnOperation else s.dispatch c c.decision := by
  cases c <;> rfl

namespace State.Accountable
variable {s : State} (h : s.Accountable)
include h

theorem settle : s.settle.Solvent :=
  h.solvent.settle h.choice

theorem settle_orders : s.settle.ord.outstanding ≠ [] → s.settle.mod.mode ≠ .halted := by
  by_cases hc : s.sel.choice = none
  · rw [settle_of_no_choice hc]; exact h.orders
  · intro _; simpa using h.choice hc

theorem dispatch (c : Command) : (s.dispatch c c.decision).Solvent := by
  have h1 : s.settle.popInbound.Solvent := h.settle.popInbound
  unfold State.dispatch
  split
  · exact h.solvent
  · dsimp only
    split
    · exact (h1.decision c _).pushOut _
    · exact h1.pushOut _

/-- A delivery: its owner takes the record from a part whose choice has been followed through. -/
theorem deliver {take : MacRecord → Option (State → State)}
    (ht : ∀ (r : MacRecord) (f : State → State) (u : State), take r = some f → u.Solvent →
      (u.ord.outstanding ≠ [] → u.mod.mode ≠ .halted) → (f u).Solvent) : (s.deliver take).Solvent := by
  unfold State.deliver
  split
  · exact h.solvent
  · split
    · exact h.solvent
    · exact ht _ _ _ ‹_› (h.settle.congr (by simp)) h.settle_orders

theorem takeExpiry : s.takeExpiry.Solvent := by
  have hd : ∀ u : State, u.Solvent → u.expireDue.Solvent := by
    intro u hu
    unfold State.expireDue
    split
    · exact hu
    · exact hu.expireFrame _
  unfold State.takeExpiry
  split
  · exact h.solvent
  · split
    · exact h.solvent.expireFrame _
    · exact hd _ h.settle

theorem takeTimeout : s.takeTimeout.Solvent := by
  unfold State.takeTimeout
  split
  · exact h.solvent
  · exact (h.settle.loseOrder _).requestLink.reportEmpty.selectionRun

theorem takeRoundBoundary : s.takeRoundBoundary.Solvent := by
  unfold State.takeRoundBoundary
  split
  · rename_i hd
    have hc : s.rck.clocksRunning = true := by
      simp only [State.roundDue, Bool.and_eq_true] at hd
      exact hd.1
    exact h.settle.makeRoundBoundary (by simpa using h.clocks hc)
  · exact h.solvent

theorem takePromptBoundary : s.takePromptBoundary.Solvent := by
  unfold State.takePromptBoundary
  split
  · exact h.settle.makePromptBoundary
  · exact h.solvent

theorem buildOrder : s.buildOrder.Solvent := by
  by_cases hc : s.sel.choice = none
  · unfold State.buildOrder
    rw [hc]
    exact h.solvent
  · exact h.solvent.buildOrder (h.choice hc)

theorem whenReleased {f : State → State} {t : State} (ht : s.whenReleased f = .next t) (hf : (f s).Solvent) :
    t.Solvent := by
  unfold State.whenReleased at ht
  injection ht with ht
  subst ht
  split
  · exact h.solvent
  · exact hf

theorem whenSelected {n : Nat} {f : State → State} {t : State} (ht : s.whenSelected n f = .next t)
    (hf : (f s).Solvent) : t.Solvent := by
  unfold State.whenSelected at ht
  injection ht with ht
  subst ht
  split
  · exact h.solvent.congr (by simp [State.returnFiller])
  · exact hf

theorem command (c : Command) {t : State} (ht : Machine.exec c.event s = .next t) : t.Solvent := by
  rw [exec_event] at ht
  refine h.whenReleased ht ?_
  split
  · exact (h.dispatch c).reformAttn _
  · exact h.dispatch c

/-- Every command of the table keeps the accounts; what a link alone does leaves them be. -/
theorem exec {i : Instr} {t : State} (ht : exec i s = .next t) : t.Solvent := by
  have hs := h.solvent
  cases i with
  | writeTransaction b => exact h.whenSelected (f := fun s => s.endWrite b) ht (hs.endWrite b)
  | readTransaction n => exact h.whenSelected (f := fun s => s.endRead n) ht (hs.endRead n)
  | idleTransaction n => exact h.whenSelected (f := fun s => s.endIdle n) ht (hs.endIdle n)
  | directionByte b => exact h.whenSelected (f := fun s => s.takeDirection b) ht (hs.takeDirection b)
  | unknownType =>
    refine h.whenReleased ht ?_
    unfold State.rejectUnknown
    split
    · exact hs
    · exact h.settle.popInbound.pushOut _
  | configure => exact h.command .configure ht
  | start => exact h.command .start ht
  | stop => exact h.command .stop ht
  | abort => exact h.command .abort ht
  | reset => exact h.command .reset ht
  | quiet => exact h.command .quiet ht
  | resume => exact h.command .resume ht
  | status => exact h.command .status ht
  | admitStation => exact h.command .admitStation ht
  | release => exact h.command .release ht
  | setWeight => exact h.command .setWeight ht
  | hold => exact h.command .hold ht
  | enqueue => exact h.command .enqueue ht
  | flush => exact h.command .flush ht
  | setCohort => exact h.command .setCohort ht
  | query => exact h.command .query ht
  | txOutcome =>
    unfold Machine.exec execTxOutcome at ht
    refine h.whenReleased ht (h.deliver fun r f u hr hu ho => ?_)
    cases r <;> cases hr
    exact hu.takeOutcome ho _
  | mediumReport =>
    unfold Machine.exec execMediumReport at ht
    refine h.whenReleased ht (h.deliver fun r f u hr hu _ => ?_)
    cases r <;> cases hr
    exact hu.takeMedium (hu.takeReport _)
  | mediumAlert =>
    unfold Machine.exec execMediumAlert at ht
    refine h.whenReleased ht (h.deliver fun r f u hr hu _ => ?_)
    cases r <;> cases hr
    exact hu.takeMedium (hu.takeAlert _)
  | mediumClear =>
    unfold Machine.exec execMediumClear at ht
    refine h.whenReleased ht (h.deliver fun r f u hr hu _ => ?_)
    cases r <;> cases hr
    exact hu.takeMedium hu.takeClear
  | doze =>
    unfold Machine.exec execDoze at ht
    refine h.whenReleased ht (h.deliver fun r f u hr hu _ => ?_)
    cases r <;> cases hr
    exact hu.takeDoze _
  | wake =>
    unfold Machine.exec execWake at ht
    refine h.whenReleased ht (h.deliver fun r f u hr hu _ => ?_)
    cases r <;> cases hr
    exact hu.takeWake _
  | poll =>
    unfold Machine.exec execPoll at ht
    refine h.whenReleased ht (h.deliver fun r f u hr hu _ => ?_)
    cases r <;> cases hr
    exact hu.takePoll _
  | frameExpiry => exact h.whenReleased ht h.takeExpiry
  | orderTimeout => exact h.whenReleased ht h.takeTimeout
  | roundBoundary => exact h.whenReleased ht h.takeRoundBoundary
  | promptBoundary => exact h.whenReleased ht h.takePromptBoundary
  | orderBuild => exact h.whenReleased ht h.buildOrder
  | pinReset =>
    cases ht
    exact (pinResetValues_solvent true).congr (by simp [State.station, State.cohort])
  | resetNRelease =>
    cases ht
    exact hs.congr (by simp [State.station, State.cohort])
  | tokenReturn => exact h.whenReleased ht hs.formTokenReturn
  | alert => exact h.whenReleased ht hs.formAlert
  | attnPulse => exact h.whenReleased ht hs.endPulse
  | recordStart cut => exact h.whenReleased (f := fun s => s.startRecord cut) ht (hs.startRecord cut)
  | recordEnd framed => exact h.whenReleased (f := fun s => s.endRecord framed true) ht (hs.endRecord framed true)
  | radioRecordSent => exact h.whenReleased ht hs.finishSending
  | radioRecordBegin r => exact h.whenReleased (f := fun s => s.beginSending r) ht (hs.beginSending r)
  | cancelAll => exact h.whenReleased ht hs.giveCancel
  | linkNoteHanded => exact h.whenReleased (f := fun s => s.giveNotes 1) ht (hs.giveNotes 1)
  | txOrderPlaced => exact h.whenReleased (f := fun s => s.giveOrders 1) ht (hs.giveOrders 1)
  | blankingExpiry => exact h.whenReleased ht hs.expireBlanking

end State.Accountable

theorem State.Accountable.withPending {s : State} (h : s.Accountable) (p : List Instr) :
    { s with pending := p }.Accountable :=
  ⟨h.solvent.congr (by simp [State.station, State.cohort]), h.choice, h.orders, h.clocks⟩

/-- Settles O58, by the invariant Solvent, which every shared operation keeps. -/
theorem stepKeepsTheAccounts : Obligations.StepKeepsTheAccounts := by
  unfold Obligations.StepKeepsTheAccounts
  intro s t hm ho hl ha hs
  have h := accountable_of_invariants hm ho hl ha
  refine State.Solvent.accountInv ?_
  unfold step at hs
  split at hs
  · exact (h.withPending _).exec hs
  · split at hs
    · exact h.exec hs
    · injection hs with hs
      subst hs
      exact h.solvent.congr (by simp [State.tick])

end Sys2Proof.Machine
end

section
/-! The values of a pin reset keep every invariant (R168, R187). -/
namespace Sys2Proof.Machine

@[simp] theorem pinResetValues_station (a : Bool) (i : Nat) : (State.pinResetValues a).station i = .cleared none := by
  simp [State.station, State.pinResetValues, Stt.pinReset]

@[simp] theorem pinResetValues_lanesOf (a : Bool) (i : Nat) : (State.pinResetValues a).lanesOf i = .empty := by
  simp [State.lanesOf, State.pinResetValues, Fpl.pinReset]

@[simp] theorem pinResetValues_lane (a : Bool) (i : Nat) (l : Lane) : (State.pinResetValues a).lane i l = [] := by
  unfold State.lane
  rw [pinResetValues_lanesOf]
  cases l <;> rfl

@[simp] theorem pinResetValues_mode (a : Bool) : (State.pinResetValues a).mod.mode = .halted := rfl

theorem pinResetValues_modeInv (a : Bool) : (State.pinResetValues a).ModeInv where
  halted := by simp [State.pinResetValues, Mod.pinReset]
  time := by simp [State.pinResetValues, Rck.pinReset, Mod.pinReset]
  clocks := by simp [State.pinResetValues, Rck.pinReset, Mod.pinReset]
  haltedCauses _ := rfl
  runningCauses _ := rfl
  quietCauses h := by simp at h
  config := by
    have : Configuration.default.inRanges = true := by decide
    exact this

theorem pinResetValues_orderInv (a : Bool) : (State.pinResetValues a).OrderInv where
  window := Nat.zero_le _
  ids := List.nodup_nil
  quarantineIds := List.nodup_nil
  quarantineLength := Nat.zero_le _
  apart o h := by cases h
  stopped _ := rfl
  draining h := by simp at h
  choice h := absurd rfl h
  frames o h := by cases h
  estimates o h := by cases h
  deadlines o h := by cases h

theorem pinResetValues_poolInv (a : Bool) : (State.pinResetValues a).PoolInv where
  total := by
    simp [State.poolTotal, State.queuedTotal, State.inFlightTotal, State.pinResetValues, Fpl.pinReset, Ord.pinReset,
      Table.replicate, Lanes.total, Lanes.empty]
  stations o h := by cases h

theorem pinResetValues_listInv (a : Bool) : (State.pinResetValues a).ListInv where
  activeOnce := List.nodup_nil
  active i := ⟨fun h => (List.not_mem_nil h).elim, fun h => by simp [Station.cleared] at h⟩
  promptOnce := List.nodup_nil
  prompt i := ⟨fun h => (List.not_mem_nil h).elim, fun h => by simp at h⟩
  pollOnce := List.nodup_nil
  poll i h := (List.not_mem_nil h).elim
  backlogged i _ h := by simp [Station.cleared] at h
  idle i _ h := by simp [Station.cleared] at h
  gone i _ := by rw [pinResetValues_lanesOf]; rfl
  choice c h := by cases h
  group := by simp [Station.cleared]
  groupLane := by simp
  groupOrders o h := by cases h
  inFlight i := by rw [pinResetValues_station]; rfl
  vacant i _ := by simp [Station.cleared]
  leaving i h := by simp [Station.cleared] at h

theorem pinResetValues_queueInv (a : Bool) : (State.pinResetValues a).QueueInv where
  controlInbound := Nat.zero_le _
  reserved h := by cases h
  controlOutbound := Nat.zero_le _
  backlog := Nat.zero_le _
  pulse := by simp [State.pinResetValues, Cli.pinReset]
  pulseOnly _ := rfl
  radioInbound := Nat.zero_le _
  radioOutbound := Nat.zero_le _
  sending h := by cases h

/-- Settles O60, invariant by invariant. -/
theorem invariantsHoldAtReset : Obligations.InvariantsHoldAtReset := by
  unfold Obligations.InvariantsHoldAtReset
  intro a
  exact ⟨pinResetValues_modeInv a, pinResetValues_orderInv a, pinResetValues_poolInv a, pinResetValues_listInv a,
    (pinResetValues_solvent a).accountInv, pinResetValues_queueInv a, rfl⟩

end Sys2Proof.Machine
end

section
/-! The host commands of MOD and of STT, FPL and COH: their decisions branch by branch, and the statements about them. -/
namespace Sys2Proof.Machine

/-! ## Refusals (R177) -/

/-- The decision `p` taken at `s` changes nothing when its reply carries a code other than OK. -/
def SparesWhenRefused (s : State) (p : State × Reply) : Prop :=
  ∀ k, p.2 = .code k → k ≠ .ok → p.1 = s

theorem spares_refuse (s : State) (k : ReplyCode) : SparesWhenRefused s (refuse s k) :=
  fun _ _ _ => rfl

theorem spares_accept (s t : State) : SparesWhenRefused s (accept t) := by
  intro k h hk
  injection h with h
  exact absurd h.symm hk

theorem spares_body {s t : State} {x : Reply} (h : ∀ k, x ≠ .code k) : SparesWhenRefused s (t, x) :=
  fun k e _ => absurd e (h k)

theorem spares_ite {s : State} {c : Prop} [Decidable c] {p q : State × Reply} (hp : SparesWhenRefused s p)
    (hq : SparesWhenRefused s q) : SparesWhenRefused s (if c then p else q) := by
  split
  · exact hp
  · exact hq

/-- No decision that refuses its command changes the part. -/
theorem decision_spares (c : Command) (s : State) (b : List Byte) : SparesWhenRefused s (c.decision s b) := by
  have no := spares_refuse s
  have yes := spares_accept s
  cases c with
  | configure =>
    unfold Command.decision decideConfigure
    dsimp only
    split
    iterate 3 exact no _
    all_goals exact spares_ite (no _) (spares_ite (no _) (yes _))
  | start =>
    unfold Command.decision decideStart
    dsimp only
    split
    · exact yes _
    all_goals exact no _
  | stop =>
    unfold Command.decision decideStop
    dsimp only
    split
    iterate 2 exact yes _
    all_goals exact no _
  | abort =>
    unfold Command.decision decideAbort
    dsimp only
    split
    iterate 3 exact yes _
    all_goals exact no _
  | reset =>
    unfold Command.decision decideReset
    dsimp only
    split
    · exact no _
    all_goals exact yes _
  | quiet =>
    unfold Command.decision decideQuiet
    dsimp only
    split
    · exact no _
    all_goals exact yes _
  | resume =>
    unfold Command.decision decideResume
    dsimp only
    split
    · exact no _
    all_goals exact yes _
  | status => exact spares_body nofun
  | admitStation =>
    exact spares_ite (no _) (spares_ite (no _) (spares_ite (no _) (spares_ite (no _) (spares_ite (no _) (yes _)))))
  | release => exact spares_ite (no _) (spares_ite (no _) (spares_ite (no _) (yes _)))
  | setWeight => exact spares_ite (no _) (spares_ite (no _) (spares_ite (no _) (yes _)))
  | hold => exact spares_ite (no _) (spares_ite (no _) (spares_ite (no _) (yes _)))
  | enqueue => exact spares_ite (no _) (spares_ite (no _) (spares_body nofun))
  | flush =>
    refine spares_ite (no _) (spares_ite (no _) ?_)
    split
    · exact no _
    · exact spares_ite (no _) (spares_body nofun)
  | setCohort =>
    exact spares_ite (no _) (spares_ite (no _) (spares_ite (no _) (spares_ite (no _) (spares_ite (yes _) (yes _)))))
  | query =>
    refine spares_ite (no _) ?_
    split
    · exact no _
    · exact spares_ite (no _) (spares_body nofun)

/-! ## The head record taken (R177) -/

/-- The part when the head record has left the control inbound queue, with `rest` behind it. -/
def State.taken (s : State) (rest : List HostRecord) : State :=
  { s with cli := { s.cli with inbound := rest } }

@[simp] theorem taken_keeps (s : State) (rest : List HostRecord) :
    (s.taken rest).rli = s.rli ∧ (s.taken rest).stt = s.stt ∧ (s.taken rest).fpl = s.fpl ∧ (s.taken rest).rck = s.rck
      ∧ (s.taken rest).coh = s.coh ∧ (s.taken rest).sel = s.sel ∧ (s.taken rest).ord = s.ord
      ∧ (s.taken rest).mgd = s.mgd ∧ (s.taken rest).mod = s.mod ∧ (s.taken rest).resetN = s.resetN
      ∧ (s.taken rest).pending = s.pending ∧ (s.taken rest).cli.outbound = s.cli.outbound
      ∧ (∀ i, (s.taken rest).station i = s.station i) ∧ (∀ i, (s.taken rest).lanesOf i = s.lanesOf i)
      ∧ (∀ i l, (s.taken rest).lane i l = s.lane i l) ∧ (∀ c, (s.taken rest).cohort c = s.cohort c) :=
  ⟨rfl, rfl, rfl, rfl, rfl, rfl, rfl, rfl, rfl, rfl, rfl, rfl, fun _ => rfl, fun _ => rfl, fun _ _ => rfl, fun _ => rfl⟩

/-- A part whose links stand as they were taken, with the reply put in line. -/
theorem pushOut_answered {s u : State} {r : HostRecord} {rest : List HostRecord} (hc : u.cli = (s.taken rest).cli)
    (ht : u.rck.deviceTime = s.rck.deviceTime) (ha : u.mod.attnOperation = s.mod.attnOperation) (x : Reply) :
    u.pushOut (.reply r.typ r.tag x) = { u with cli := s.answered r rest x } := by
  rw [pushOut_eq, hc, ht, ha]
  rfl

section Heads
variable {s : State} {c : Command} {r : HostRecord} {rest : List HostRecord}

theorem exec_of_decision (h : s.Heads c r rest) (hc : c ≠ .configure) {u : State} {x : Reply}
    (hd : c.decision (s.taken rest) r.body = (u, x)) :
    exec c.event s = .next (u.pushOut (.reply r.typ r.tag x)) := by
  rw [exec_of_heads h, if_neg hc, dispatch_of_heads c.decision h]
  unfold State.taken at hd
  rw [hd]

/-- The row of a command whose decision leaves the links, the clock and the ATTN operation. -/
theorem exec_answered (h : s.Heads c r rest) (hc : c ≠ .configure) {u : State} {x : Reply}
    (hd : c.decision (s.taken rest) r.body = (u, x)) (hu : u.cli = (s.taken rest).cli)
    (ht : u.rck.deviceTime = s.rck.deviceTime) (ha : u.mod.attnOperation = s.mod.attnOperation) :
    exec c.event s = .next { u with cli := s.answered r rest x } := by
  rw [exec_of_decision h hc hd, pushOut_answered hu ht ha]

/-- The row of a command whose decision changes nothing. -/
theorem exec_unchanged (h : s.Heads c r rest) (hc : c ≠ .configure) {x : Reply}
    (hd : c.decision (s.taken rest) r.body = (s.taken rest, x)) :
    exec c.event s = .next { s with cli := s.answered r rest x } :=
  exec_answered (u := s.taken rest) h hc hd rfl rfl rfl

theorem exec_configure_of_decision (h : s.Heads .configure r rest) {u : State} {x : Reply}
    (hd : decideConfigure (s.taken rest) r.body = (u, x)) :
    exec .configure s = .next ((u.pushOut (.reply r.typ r.tag x)).reformAttn s.mod.attnOperation) := by
  have := exec_of_heads h
  rw [if_pos rfl, dispatch_of_heads _ h] at this
  unfold State.taken at hd
  simp only [Command.decision, hd] at this
  exact this

end Heads

theorem reformAttn_same (s : State) : s.reformAttn s.mod.attnOperation = s := by
  simp [State.reformAttn]

@[simp] theorem reformAttn_outbound (s : State) (b : Option AttnMode) :
    (s.reformAttn b).cli.outbound = s.cli.outbound := by
  unfold State.reformAttn
  split <;> rfl

/-- Settles O9: a refusing decision spares the part, and the reply is all that is left. -/
theorem refusedCommandsChangeNothing : Obligations.RefusedCommandsChangeNothing := by
  unfold Obligations.RefusedCommandsChangeNothing
  intro s c r rest h
  have hn : commandOf r.typ = some c := h.2.2.2.2.1
  have hd := dispatch_of_heads c.decision h
  rw [dispatchEvent_of_command hn, exec_of_heads h]
  change s.dispatch c c.decision = (c.decision (s.taken rest) r.body).1.pushOut
    (.reply r.typ r.tag (c.decision (s.taken rest) r.body).2) at hd
  rw [hd]
  refine ⟨_, (c.decision (s.taken rest) r.body).2, rfl, ?_, fun k hk hne => ?_⟩
  · split <;> simp [pushOut_cli]
  · have hp := pushOut_answered (s := s) (r := r) (rest := rest) rfl rfl rfl (.code k)
    rw [hk, decision_spares c _ _ k hk hne, hp]
    split
    · exact reformAttn_same { s with cli := s.answered r rest (.code k) }
    · rfl

end Sys2Proof.Machine
end

section
/-! CONFIGURE, STOP and ABORT (R160 to R166). -/
namespace Sys2Proof.Machine

/-! ## CONFIGURE -/

/-- CONFIGURE as it is accepted (R160). -/
theorem decideConfigure_accepted {s : State} {b : List Byte} {raw : RawConfiguration}
    (hm : s.mod.mode = .halted ∨ s.mod.mode = .ready) (hraw : raw = parseConfigure b)
    (hv : raw.useDefaults = true ∨ raw.valid = true) (hf : s.fpl.freeEntries = 4096) :
    decideConfigure s b = accept (if s.mod.mode = .halted
      then (s.writeConfiguration raw.toConfiguration).leaveHalted
      else (s.writeConfiguration raw.toConfiguration).reclampStations) := by
  have hn : (!(parseConfigure b).useDefaults && !(parseConfigure b).valid) = false := by
    rw [← hraw]
    rcases hv with h | h <;> simp [h]
  unfold decideConfigure
  rcases hm with h | h <;> simp [h, hn, hf, Config.frameEntries, hraw]

/-- The reply to an accepted CONFIGURE, and the ATTN operation the new record brings into force behind it (R179). -/
theorem reformAttn_configured {s u : State} {r : HostRecord} {rest : List HostRecord} {cfg : Configuration} (x : Reply)
    (hc : u.cli = (s.taken rest).cli) (hv : u.mod.configValid = true) (hcfg : u.mod.config = cfg)
    (ht : s.mod.configValid = true → u.rck.deviceTime = s.rck.deviceTime) :
    (u.pushOut (.reply r.typ r.tag x)).reformAttn s.mod.attnOperation
      = { u with cli := if s.mod.configValid = true ∧ cfg.attnMode = s.mod.config.attnMode
          then s.answered r rest x else { s.answered r rest x with backlog := 0, pulse := none } } := by
  have hu : u.mod.attnOperation = some cfg.attnMode := by simp [Mod.attnOperation, hv, hcfg]
  by_cases h : s.mod.configValid = true ∧ cfg.attnMode = s.mod.config.attnMode
  · have ha : u.mod.attnOperation = s.mod.attnOperation := by rw [hu, h.2]; simp [Mod.attnOperation, h.1]
    rw [if_pos h, pushOut_answered hc (ht h.1) ha, ← ha]
    exact reformAttn_same { u with cli := s.answered r rest x }
  · have ha : ¬ u.mod.attnOperation = s.mod.attnOperation := by
      rw [hu]
      unfold Mod.attnOperation
      split
      · rename_i hs
        simpa [hs] using h
      · simp
    rw [if_neg h, pushOut_eq]
    unfold State.reformAttn
    rw [if_neg ha, hc]
    rfl

/-- The table of stations behind the CONFIGURE that leaves HALTED (R2). -/
theorem leaveHalted_eq {s : State} (hm : s.mod.mode = .halted) : s.leaveHalted = { s with
    mod := { s.mod with mode := .ready, pendingAlert := true }
    rck := { s.rck with deviceTime := 0, timeRunning := true }
    stt := { s.stt with stations := s.stt.stations.modify 0 (Station.groupStation s.mod.config) } } := by
  unfold State.leaveHalted State.setMode
  rw [if_neg (by simp [hm])]
  rfl

/-- Settles O11: the accepted decision, and the ATTN operation that the first valid record brings. -/
theorem configureLeavesHalted : Obligations.ConfigureLeavesHalted := by
  unfold Obligations.ConfigureLeavesHalted
  intro s r rest raw h hm hc hraw hv hf
  have hd : decideConfigure (s.taken rest) r.body
      = accept ((s.taken rest).writeConfiguration raw.toConfiguration).leaveHalted := by
    rw [decideConfigure_accepted (s := s.taken rest) (.inl hm) hraw hv hf]
    exact congrArg accept (if_pos hm)
  have hu := leaveHalted_eq (s := (s.taken rest).writeConfiguration raw.toConfiguration) hm
  rw [exec_configure_of_decision h hd, reformAttn_configured (rest := rest) (cfg := raw.toConfiguration) _ (by simp)
    (by simp [State.writeConfiguration]) (by simp [State.writeConfiguration]) (by simp [hc]),
    if_neg (by simp [hc]), hu]
  rfl

/-- Settles O12: the accepted decision, record by record. -/
theorem configureInReadyReclamps : Obligations.ConfigureInReadyReclamps := by
  unfold Obligations.ConfigureInReadyReclamps
  intro s r rest raw cfg h hm hraw hcfg hv hf
  have hd : decideConfigure (s.taken rest) r.body
      = accept ((s.taken rest).writeConfiguration cfg).reclampStations := by
    rw [decideConfigure_accepted (s := s.taken rest) (.inr hm) hraw hv hf, hcfg]
    exact congrArg accept (if_neg (by simp [hm]))
  rw [exec_configure_of_decision h hd, reformAttn_configured (rest := rest) (cfg := cfg) _ (by simp)
    (by simp [State.writeConfiguration]) (by simp [State.writeConfiguration]) (by simp)]
  refine ⟨_, rfl, rfl, fun i hi => ⟨_, rfl, ?_⟩, rfl, rfl, rfl, rfl, rfl, rfl, rfl, rfl, rfl, rfl, rfl, rfl⟩
  have hst : ((s.taken rest).writeConfiguration cfg).reclampStations.station i = (s.station i).reclamp cfg i := by
    simp [State.reclampStations, State.station, Table.get_mapIdx, hi, Config.stationCount, State.writeConfiguration]
  exact hst

end Sys2Proof.Machine
end

section
/-! STOP and ABORT (R164 to R166). -/
namespace Sys2Proof.Machine

/-! ## STOP -/

theorem enterReady_attnOperation (s : State) : s.enterReady.mod.attnOperation = s.mod.attnOperation := by
  simp [Mod.attnOperation]

/-- Settles O15, mode by mode. -/
theorem stopDrainsOrEnds : Obligations.StopDrainsOrEnds := by
  unfold Obligations.StopDrainsOrEnds
  intro s r rest h
  have hmode : (s.taken rest).mod.mode = s.mod.mode := rfl
  refine ⟨fun h1 h2 => ?_, fun hm ho => ?_, fun hm ho => ?_⟩
  · refine exec_unchanged h (by simp) ?_
    simp only [Command.decision, decideStop]
    split
    · exact absurd ‹_› h1
    · exact absurd ‹_› h2
    all_goals rfl
  · have hd : decideStop (s.taken rest) r.body = accept ((s.taken rest).setMode .draining) := by
      unfold decideStop
      rcases hm with hm | hm <;> simp [hm, ho]
    have hu : (s.taken rest).setMode .draining
        = { s.taken rest with mod := { s.mod with mode := .draining, pendingAlert := true } } := by
      unfold State.setMode
      rw [if_neg (by rcases hm with hm | hm <;> simp [hm])]
      rfl
    rw [hu] at hd
    exact exec_answered h (by simp) hd rfl rfl rfl
  · have hd : decideStop (s.taken rest) r.body = accept (s.taken rest).enterReady := by
      unfold decideStop
      rcases hm with hm | hm <;> simp [hm, ho]
    have hr : (s.taken rest).mod.mode ≠ .ready := by rcases hm with hm | hm <;> simp [hm]
    obtain ⟨h1, h2, h3, h4, h5⟩ := enterReady_spec (s.taken rest)
    refine ⟨_, exec_answered h (by simp) hd (by simp) (by simp) (enterReady_attnOperation _), rfl,
      enterReady_mod _ hr, h1, h2, h3, h4, h5, ?_⟩
    simp

/-! ## ABORT -/

/-- What an ABORT leaves behind the cancelled orders (R137, R166). -/
theorem cancelOrders_ord {s : State} (hq : s.ord.quarantine.length ≤ 8) :
    s.cancelOrders.ord.outstanding = []
      ∧ s.cancelOrders.ord.quarantine = (s.ord.quarantine ++ s.ord.outstanding.map Order.id).drop
          (s.ord.quarantine.length + s.ord.outstanding.length - 8)
      ∧ s.cancelOrders.ord.counters = { s.ord.counters with
          ordersCancelled := if s.ord.outstanding = [] then s.ord.counters.ordersCancelled
            else min (s.ord.counters.ordersCancelled + s.ord.outstanding.length) 4294967295
          quarantineEvictions := if s.ord.quarantine.length + s.ord.outstanding.length ≤ 8
            then s.ord.counters.quarantineEvictions
            else min (s.ord.counters.quarantineEvictions
              + (s.ord.quarantine.length + s.ord.outstanding.length - 8)) 4294967295 }
      ∧ s.cancelOrders.fpl = { s.fpl with
          returnList := s.fpl.returnList ++ s.ord.outstanding.flatMap (fun o => o.frames.map (fun f => ⟨f, .aborted⟩)) } := by
  obtain ⟨h1, h2, h3, h4⟩ := cancelFold_ord s.ord.outstanding s hq
  unfold State.cancelOrders
  simp only [requestCancelAll_keeps]
  refine ⟨?_, h2, h3, h4⟩
  rw [h1, List.filter_eq_nil_iff]
  intro o ho hall
  simpa using List.all_eq_true.mp hall o ho

theorem cancelOrders_station (s : State) (i : Nat) : s.cancelOrders.station i =
    if (s.station i).state = .leaving ∧ 0 < s.ordersNaming i ∧ (s.station i).inFlight ≤ s.ordersNaming i
    then .cleared (s.station i).cohort
    else { s.station i with inFlight := (s.station i).inFlight - s.ordersNaming i } := by
  unfold State.cancelOrders
  simp only [requestCancelAll_keeps]
  exact cancelFold_any s.ord.outstanding s i

/-- The CANCEL_ALL behind the cancelled orders: pending, or last in the radio outbound queue (R137, R183). -/
theorem cancelOrders_cancelAll (s : State) :
    (s.cancelOrders.ord.cancelPending = true ∧ s.cancelOrders.radioFree = 0)
      ∨ (s.cancelOrders.ord.cancelPending = false ∧ s.cancelOrders.rli.outbound.getLast? = some .cancelAll) := by
  obtain ⟨-, h2, h3⟩ := requestCancelAll_line (s.ord.outstanding.foldl State.cancelOrder s)
  change s.cancelOrders.rli = _ at h2
  change s.cancelOrders.ord = _ at h3
  by_cases hz : (s.ord.outstanding.foldl State.cancelOrder s).radioFree = 0
  · left
    rw [h3]
    refine ⟨by simp [hz], ?_⟩
    unfold State.radioFree at hz ⊢
    rw [h2]
    simp only [List.length_append]
    omega
  · right
    rw [h2, h3]
    simp [hz]

theorem enterReady_radioLine (s : State) : s.enterReady.radioLine = s.radioLine := by
  simp [State.radioLine]

/-- Settles O16: the cancelled orders, then the entry to READY. -/
theorem abortCancelsTheOrders : Obligations.AbortCancelsTheOrders := by
  unfold Obligations.AbortCancelsTheOrders
  intro s r rest gone line h hm hq hg hline
  have hd : decideAbort (s.taken rest) r.body = accept (s.taken rest).cancelOrders.enterReady := by
    unfold decideAbort
    rcases hm with hm | hm | hm <;> simp [hm]
  have hx := exec_answered h (by simp) hd (by simp) (by simp) (by simp [Mod.attnOperation])
  obtain ⟨o1, o2, o3, o4⟩ := cancelOrders_ord (s := s.taken rest) hq
  have hst := cancelOrders_station (s.taken rest)
  have hca := cancelOrders_cancelAll (s.taken rest)
  obtain ⟨l1, l2⟩ := cancelOrders_line (s.taken rest)
  have hgone : (s.taken rest).goneOf (s.taken rest).ord.outstanding = gone := hg.symm
  have hl : (s.taken rest).radioLine ++ gone.map .unbind = line := hline.symm
  have hnam : ∀ i, (s.taken rest).ordersNaming i = s.ordersNaming i := fun _ => rfl
  have hfree : (s.taken rest).radioFree = s.radioFree := rfl
  have hk := cancelOrders_keeps (s.taken rest)
  rw [hgone] at l1 l2
  rw [hl] at l2
  simp only [taken_keeps, hnam, hfree] at o1 o2 o3 o4 hst l1 l2 hk
  generalize (s.taken rest).cancelOrders = w at *
  have hr : w.mod.mode ≠ .ready := by rcases hm with hm | hm | hm <;> simp [hk, hm]
  have hmod := enterReady_mod w hr
  have hline' := enterReady_radioLine w
  obtain ⟨e1, e2, e3, e4, e5⟩ := enterReady_spec w
  have hj := enterReady_keeps w
  generalize w.enterReady = u at *
  simp only [hk] at hmod e1 e3 e4 e5 hj
  obtain ⟨jord, jrli, jfree, jnotes⟩ : u.ord = w.ord ∧ u.rli = w.rli ∧ u.radioFree = w.radioFree
    ∧ u.stt.linkNotes = w.stt.linkNotes := by simp [hj]
  have hcoh : ∀ i, (w.station i).cohort = (s.station i).cohort := by
    intro i
    rw [hst]
    split <;> simp [Station.cleared]
  rw [← jord, ← jrli, ← jfree] at hca
  rw [← jrli, ← jnotes] at l1
  rw [← jrli, ← hline'] at l2
  refine ⟨_, hx, rfl, hmod, e1, ?_, ?_, ?_, ?_, ?_, ?_, ?_, ?_, ?_, ?_, e3, ?_, ?_, ?_⟩
  · simp [hj, o4]
  · simp [hj, o1]
  · simp [hj, o2]
  · simp [hj, hk]
  · simp [hj, hk]
  · simp [hj, o3]
  · exact hca
  · exact fun h0 => (l1 h0).2
  · exact l2
  · intro i hi
    have hi' := e2 i hi
    rw [hst i] at hi'
    by_cases hc : (s.station i).state = .leaving ∧ 0 < s.ordersNaming i ∧ (s.station i).inFlight ≤ s.ordersNaming i
    · rw [if_pos hc] at hi' ⊢
      exact hi'
    · rw [if_neg hc] at hi' ⊢
      exact hi'
  · intro hs i hi
    exact (e4 hs i hi).trans (hcoh i)
  · exact e5
  · simp [hj, hk]

end Sys2Proof.Machine
end

section
/-! RESET (R167): the cancelled orders, the flush and the blocks, stage by stage. -/
namespace Sys2Proof.Machine

/-! ## The cancelled orders of a soft reset (R138) -/

theorem softResetOrders_station (s : State) (i : Nat) : s.softResetOrders.station i =
    if (s.station i).state = .leaving ∧ 0 < s.ordersNaming i ∧ (s.station i).inFlight ≤ s.ordersNaming i
    then .cleared (s.station i).cohort
    else { s.station i with inFlight := (s.station i).inFlight - s.ordersNaming i } :=
  cancelOrders_station (s.updOrd fun o => { o with quarantine := [] }) i

/-- A requested CANCEL_ALL finds a full radio outbound queue full. -/
theorem requestCancelAll_full {s : State} (h : s.radioFree = 0) : s.requestCancelAll.radioFree = 0 := by
  obtain ⟨-, h2, -⟩ := requestCancelAll_line s
  unfold State.radioFree at h ⊢
  rw [h2]
  simp only [List.length_append]
  omega

/-- The notes behind the cancelled orders: none but UNBIND notes join, and a full queue takes none (R8, R183). -/
theorem softResetOrders_notes (s : State) :
    (∀ x ∈ s.softResetOrders.stt.linkNotes, x ∈ s.stt.linkNotes ∨ ∃ i, x = .unbind i)
      ∧ (s.radioFree = 0 → (∀ x ∈ s.stt.linkNotes, x ∈ s.softResetOrders.stt.linkNotes)
        ∧ s.softResetOrders.radioFree = 0) := by
  obtain ⟨h1, h2⟩ := cancelFold_notes s.ord.outstanding (s.updOrd fun o => { o with quarantine := [] })
  have he : s.softResetOrders.stt.linkNotes = (s.ord.outstanding.foldl State.cancelOrder
      (s.updOrd fun o => { o with quarantine := [] })).stt.linkNotes :=
    congrArg Stt.linkNotes (requestCancelAll_line _).1
  rw [he]
  exact ⟨h1, fun h => ⟨(h2 h).1, requestCancelAll_full (h2 h).2⟩⟩

/-- What stood in line stays there, with an UNBIND for each LEAVING station whose orders all go (R8, R137). -/
theorem softResetOrders_mem (s : State) :
    (∀ x ∈ s.radioLine, x ∈ s.softResetOrders.radioLine)
      ∧ ∀ i, (s.station i).state = .leaving → 0 < s.ordersNaming i →
          (s.station i).inFlight ≤ s.ordersNaming i → .unbind i ∈ s.softResetOrders.radioLine := by
  obtain ⟨h1, h2⟩ := cancelFold_unbind s.ord.outstanding (s.updOrd fun o => { o with quarantine := [] })
  exact ⟨fun x hx => requestCancelAll_mem _ x (h1 x hx),
    fun i hl hp hc => requestCancelAll_mem _ _ (h2 i hl hp hc)⟩

theorem softResetOrders_polled (s : State) (i : Nat) : s.softResetOrders.Polled i ↔ s.Polled i := by
  unfold State.Polled
  rw [softResetOrders_station]
  simp only [softResetOrders_keeps]
  split
  · rename_i h
    simp [h.1, Station.cleared]
  · rfl

/-- The line behind the cancelled orders of a soft reset (R137, R183). -/
theorem softResetOrders_line (s : State) :
    (s.goneOf s.ord.outstanding = [] →
      s.softResetOrders.radioLine = s.rli.outbound ++ [.cancelAll] ++ s.stt.linkNotes.map LinkNote.toRecord
        ∧ s.softResetOrders.stt.linkNotes = s.stt.linkNotes
        ∧ s.softResetOrders.rli.outbound = s.rli.outbound ++ (if s.radioFree = 0 then [] else [.cancelAll]))
    ∧ (s.goneOf s.ord.outstanding ≠ [] →
      (∀ i ∈ s.goneOf s.ord.outstanding, (s.station i).inFlight = s.ordersNaming i) →
      s.softResetOrders.radioLine =
          (if s.ord.cancelPending = true ∧ s.radioFree = 0
            then s.radioLine ++ (s.goneOf s.ord.outstanding).map RadioRecord.unbind
            else (s.radioLine ++ (s.goneOf s.ord.outstanding).map RadioRecord.unbind).take (max s.rli.outbound.length 8)
              ++ [.cancelAll]
              ++ (s.radioLine ++ (s.goneOf s.ord.outstanding).map RadioRecord.unbind).drop (max s.rli.outbound.length 8))
        ∧ s.softResetOrders.rli.outbound = s.softResetOrders.radioLine.take (max s.rli.outbound.length 8)) :=
  cancelOrders_line (s.updOrd fun o => { o with quarantine := [] })

/-- The queue behind the cancelled orders is no longer than the room it has (R183). -/
theorem softResetOrders_room (s : State)
    (h : s.goneOf s.ord.outstanding ≠ [] →
      ∀ i ∈ s.goneOf s.ord.outstanding, (s.station i).inFlight = s.ordersNaming i) :
    max s.softResetOrders.rli.outbound.length 8 = max s.rli.outbound.length 8 := by
  obtain ⟨l1, l2⟩ := softResetOrders_line s
  by_cases hg : s.goneOf s.ord.outstanding = []
  · rw [(l1 hg).2.2]
    by_cases hz : s.radioFree = 0
    · simp [hz]
    · have : s.rli.outbound.length < 8 := by
        unfold State.radioFree Config.radioOutbound at hz
        omega
      simp [hz]
      omega
  · obtain ⟨a1, a2⟩ := l2 hg (h hg)
    have hlen : s.rli.outbound.length ≤ s.softResetOrders.radioLine.length := by
      have : s.rli.outbound.length ≤ s.radioLine.length := by simp [State.radioLine]
      rw [a1]
      split
      · simp; omega
      · simp; omega
    rw [a2, List.length_take]
    omega

/-! ## The flush and the blocks -/

theorem softReset_radioLine (s : State) : s.softReset.radioLine = s.softResetOrders.flushAll.radioLine := by
  simp [State.softReset, State.radioLine]

theorem softReset_lanesOf (s : State) (i : Nat) : s.softReset.lanesOf i = .empty := by
  obtain ⟨h, -⟩ := flushAll_spec s.softResetOrders
  simp only [State.softReset, softResetBlocks_keeps, h, softResetOrders_keeps]
  split
  · rfl
  · exact lanesOf_of_le s (by omega)

/-- The stations whose grants a RESET withdraws, in index order. -/
def State.polledStations (s : State) : List Nat :=
  (List.range 512).filter fun i => decide (s.Polled i)

/-- The POLL_EMPTY notes a soft reset forms, and what stands in the line behind them (R6, R116, R138, R183). -/
theorem softReset_told (s : State) (line : List RadioRecord)
    (hl : line = s.radioLine ++ (s.goneOf s.ord.outstanding).map .unbind) :
    ∃ told : List Nat, told.Sublist s.polledStations
      ∧ (∀ i ∈ s.polledStations, i ∉ told → LinkNote.pollEmpty i ∈ s.stt.linkNotes)
      ∧ (s.radioFree = 0 → ∀ i ∈ told, LinkNote.pollEmpty i ∉ s.stt.linkNotes)
      ∧ (s.goneOf s.ord.outstanding = [] →
        s.softReset.radioLine = s.rli.outbound ++ [.cancelAll] ++ s.stt.linkNotes.map LinkNote.toRecord
          ++ told.map .pollEmpty)
      ∧ (s.goneOf s.ord.outstanding = [] → told = [] → s.softReset.stt.linkNotes = s.stt.linkNotes
        ∧ s.softReset.rli.outbound = s.rli.outbound ++ (if s.radioFree = 0 then [] else [.cancelAll]))
      ∧ (s.goneOf s.ord.outstanding ≠ [] →
        (∀ i ∈ s.goneOf s.ord.outstanding, (s.station i).inFlight = s.ordersNaming i) →
        s.softReset.radioLine = (if s.ord.cancelPending = true ∧ s.radioFree = 0 then line
          else line.take (max s.rli.outbound.length 8) ++ [.cancelAll]
            ++ line.drop (max s.rli.outbound.length 8)) ++ told.map .pollEmpty)
      ∧ (told ≠ [] ∨ s.goneOf s.ord.outstanding ≠ [] →
        (∀ i ∈ s.goneOf s.ord.outstanding, (s.station i).inFlight = s.ordersNaming i) →
        s.softReset.rli.outbound = s.softReset.radioLine.take (max s.rli.outbound.length 8)) := by
  obtain ⟨n1, n2⟩ := softResetOrders_notes s
  obtain ⟨l1, l2⟩ := softResetOrders_line s
  have hroom := softResetOrders_room s
  have hpol := softResetOrders_polled s
  obtain ⟨told, t1, t2, t3, t4, t5, t6⟩ := flushList_told (List.range 512) List.nodup_range s.softResetOrders
  have hout : s.softReset.rli.outbound = s.softResetOrders.flushAll.rli.outbound := by simp [State.softReset]
  have hnotes : s.softReset.stt.linkNotes = s.softResetOrders.flushAll.stt.linkNotes := by simp [State.softReset]
  rw [softReset_radioLine, hout, hnotes, flushAll_eq]
  simp only [hpol] at t1 t2
  rw [← hl] at l2
  generalize s.softResetOrders = a at *
  generalize flushList (List.range 512) a = b at *
  have hmem : ∀ i, i ∈ s.polledStations ↔ i < 512 ∧ s.Polled i := by simp [State.polledStations]
  refine ⟨told, t1, fun i hi ht => ?_, fun hz i hi hn => ?_, fun hg => ?_, fun hg ht => ?_, fun hg hin => ?_,
    fun ht hin => ?_⟩
  · obtain ⟨h5, hp⟩ := (hmem i).mp hi
    rcases n1 _ (t2 i (List.mem_range.mpr h5) hp ht) with h | ⟨j, h⟩
    · exact h
    · cases h
  · exact t3 (n2 hz).2 i hi ((n2 hz).1 _ hn)
  · rw [t4, (l1 hg).1]
  · rw [(t5 ht).1, (t5 ht).2]
    exact (l1 hg).2
  · rw [t4, (l2 hg hin).1]
  · by_cases h0 : told = []
    · have hg := ht.resolve_left (not_not_intro h0)
      rw [(t5 h0).2, t4, h0, (l2 hg hin).2]
      simp
    · rw [t6 h0, hroom fun _ => hin]

/-- A station record behind a soft reset: the orders cancelled, the lanes flushed, the record cleared (R21). -/
theorem softReset_station (s : State) {i : Nat} (hi : i < 512) : s.softReset.station i =
    Station.softReset s.mod.config
      (if i ≠ 0 ∧ (s.softResetOrders.station i).state = .backlogged ∧ (s.lanesOf i).allEmpty = false
        then { s.softResetOrders.station i with state := .idle } else s.softResetOrders.station i) := by
  obtain ⟨-, h, -⟩ := flushAll_spec s.softResetOrders
  obtain ⟨-, -, -, -, -, -, -, -, hb, -⟩ := softResetBlocks_spec s.softResetOrders.flushAll
  unfold State.softReset
  rw [hb i hi, h i]
  simp [hi]

/-- What a soft reset makes of the blocks other than STT and FPL (R83, R94, R116, R138, R156, R167, R187). -/
theorem softReset_blocks (s : State) :
    s.softReset.mod = { s.mod with
          mode := .ready, causes := .empty, alertsSent := 0
          pendingAlert := s.mod.pendingAlert || decide (s.mod.mode ≠ .ready) || decide (s.mod.causes ≠ .empty) }
      ∧ s.softReset.cli = { s.cli with clShortRecords := 0, clBadDirection := 0 }
      ∧ s.softReset.stt.radioIgnored = 0
      ∧ s.softReset.sel = { s.sel with active := [], prompt := [], poll := [], groupDue := false }
      ∧ (∀ c, c < 32 → s.softReset.cohort c
          = { s.cohort c with stagedSpan := none, stagedCapPm := none, usedRound := 0 })
      ∧ s.softReset.rck = { s.rck with
          clocksRunning := false, promptUsed := 0, postscaler := 0, skipped := 0
          reportsSent := 0, reportsSkipped := 0 }
      ∧ s.softReset.mgd = { s.mgd with
          mediumAlerts := 0, mediumReports := 0, reportsBlanked := 0, linkRaises := 0, mediumIgnored := 0 }
      ∧ s.softReset.rli = { s.rli with outbound := s.softReset.rli.outbound, rlMalformed := 0, rlOverrun := 0 } := by
  obtain ⟨c, b, e, hc, hb⟩ := softReset_spec s
  have hk := flushAll_keeps b
  have hj := softResetOrders_keeps s
  rw [← hc] at hk
  rw [← hb] at hj
  simp only [hj] at hk
  rw [e]
  obtain ⟨b1, b2, -, b4, b5, b6, b7, b8, -, b10⟩ := softResetBlocks_spec c
  rw [b1, b2, b4, b5, b6, b7, b8]
  simp only [hk] at b10 ⊢
  exact ⟨trivial, trivial, trivial, trivial, b10, trivial, trivial, trivial⟩

/-- What a soft reset makes of the frame pool (R46). -/
theorem softReset_frames (s : State) :
    s.softReset.fpl.returnList = s.fpl.returnList
          ++ s.ord.outstanding.flatMap (fun o => o.frames.map (fun f => ⟨f, .aborted⟩))
          ++ (List.range 512).flatMap (fun i => (s.lanesOf i).inOrder.map (fun f => ⟨f, .flushed⟩))
      ∧ s.softReset.fpl.expiry = s.fpl.expiry.filter (fun e =>
          !((List.range 512).flatMap fun i => (s.lanesOf i).inOrder).any fun f => f.sequence == e.sequence)
      ∧ s.softReset.fpl.freeEntries = s.fpl.freeEntries ∧ s.softReset.fpl.nextSequence = s.fpl.nextSequence
      ∧ s.softReset.fpl.framesAccepted = 0 ∧ s.softReset.fpl.framesRefused = 0
      ∧ s.softReset.fpl.framesRequeued = 0 ∧ s.softReset.fpl.framesExpired = 0
      ∧ s.softReset.fpl.tokenNotices = 0 := by
  obtain ⟨c, b, e, hc, hb⟩ := softReset_spec s
  have hk := flushAll_keeps b
  have hj := softResetOrders_keeps s
  have ho := (softResetOrders_spec s).1
  obtain ⟨-, -, f3, -⟩ := flushAll_spec b
  have he := flushList_expiry (List.range 512) b List.nodup_range
  rw [← flushAll_eq, ← hc] at he
  rw [← hc] at hk f3
  rw [← hb] at hj ho
  obtain ⟨-, -, b3, -⟩ := softResetBlocks_spec c
  rw [e, b3]
  simp only [hk, hj, ho, leaveExpiry] at f3 he ⊢
  simp only [f3, he, and_self]

/-- What a soft reset makes of ORD (R138). -/
theorem softReset_ord (s : State) :
    s.softReset.ord.outstanding = [] ∧ s.softReset.ord.nextId = s.ord.nextId ∧ s.softReset.ord.lossCount = 0
      ∧ s.softReset.ord.counters = .zero
      ∧ s.softReset.ord.quarantine = (s.ord.outstanding.map Order.id).drop (s.ord.outstanding.length - 8)
      ∧ ((s.softReset.ord.cancelPending = true ∧ s.softReset.radioFree = 0)
          ∨ (s.softReset.ord.cancelPending = false ∧ .cancelAll ∈ s.softReset.rli.outbound)) := by
  obtain ⟨c, b, e, hc, hb⟩ := softReset_spec s
  have hk := flushAll_keeps b
  have hj := softResetOrders_keeps s
  obtain ⟨-, o2, o3, o4, o5, o6, -⟩ := softResetOrders_spec s
  obtain ⟨-, -, -, f4⟩ := flushAll_spec b
  rw [← hc] at hk f4
  rw [← hb] at hj o2 o3 o4 o5 o6
  have f := f4 o6
  rw [e]
  simp only [softResetBlocks_keeps, hk, hj, o2, o3, o4, o5, true_and] at f ⊢
  exact f

/-- What stood in line for the MAC stands there behind a soft reset, with the UNBIND notes of the LEAVING stations whose
orders all go (R8, R183). -/
theorem softReset_mem (s : State) :
    (∀ x ∈ s.radioLine, x ∈ s.softReset.radioLine)
      ∧ ∀ i, (s.station i).state = .leaving → 0 < s.ordersNaming i →
          (s.station i).inFlight ≤ s.ordersNaming i → .unbind i ∈ s.softReset.radioLine := by
  obtain ⟨m1, m2⟩ := softResetOrders_mem s
  rw [softReset_radioLine]
  exact ⟨fun x hx => flushAll_mem _ x (m1 x hx), fun i hl hp hc => flushAll_mem _ _ (m2 i hl hp hc)⟩

/-- The records of the stations behind a soft reset, by what they were before it (R8, R21). -/
theorem softReset_records (s : State) {i : Nat} (hi : i < 512) :
    ((s.station i).state = .leaving → 0 < s.ordersNaming i → (s.station i).inFlight ≤ s.ordersNaming i →
        s.softReset.station i = .cleared (s.station i).cohort)
      ∧ ((s.station i).state = .vacant → s.ordersNaming i = 0 → s.softReset.station i = s.station i)
      ∧ ((s.station i).state ≠ .vacant → (i = 0 → (s.station i).state ≠ .backlogged) →
        ((s.station i).state = .leaving → s.ordersNaming i = 0 ∨ s.ordersNaming i < (s.station i).inFlight) →
        s.softReset.station i = { s.station i with
          state := if (s.station i).state = .backlogged ∧ (s.lanesOf i).allEmpty = false then .idle
            else (s.station i).state
          balance := 0, quantum := 0, usedRound := 0, delivered := 0, failed := 0
          cap := s.mod.config.orderMaxUs, held := false, stagedWeight := none, stagedHold := none
          inFlight := (s.station i).inFlight - s.ordersNaming i }) := by
  have ho := softResetOrders_station s i
  have hr := softReset_station s hi
  refine ⟨fun hl hp hc => ?_, fun hv hn => ?_, fun hv h0 hl => ?_⟩
  · rw [if_pos ⟨hl, hp, hc⟩] at ho
    rw [ho, if_neg (by simp [Station.cleared])] at hr
    exact hr
  · rw [if_neg (by simp [hv]), hn] at ho
    rw [ho, if_neg (by simp [hv])] at hr
    exact hr.trans (if_pos hv)
  · rw [if_neg (by rintro ⟨a, b, c⟩; rcases hl a with h | h <;> omega)] at ho
    rw [ho] at hr
    by_cases hb : (s.station i).state = .backlogged ∧ (s.lanesOf i).allEmpty = false
    · have hi0 : i ≠ 0 := fun e => h0 e hb.1
      rw [if_pos ⟨hi0, hb⟩] at hr
      rw [if_pos hb]
      exact hr.trans (if_neg (by simp))
    · rw [if_neg fun h => hb h.2] at hr
      rw [if_neg hb]
      exact hr.trans (if_neg hv)

/-- Settles O17, stage by stage: the cancelled orders, the flush, the blocks. -/
theorem resetCleansThePart : Obligations.ResetCleansThePart := by
  unfold Obligations.ResetCleansThePart
  intro s r rest gone polled line h hm hgone hpolled hline
  have hd : decideReset (s.taken rest) r.body = accept (s.taken rest).softReset := by
    unfold decideReset
    split
    · exact absurd ‹_› hm
    all_goals rfl
  obtain ⟨b1, b2, b3, b4, b5, b6, b7, b8⟩ := softReset_blocks (s.taken rest)
  obtain ⟨f1, f2, f3⟩ := softReset_frames (s.taken rest)
  obtain ⟨o1, o2, o3, o4, o5, o6⟩ := softReset_ord (s.taken rest)
  obtain ⟨m1, m2⟩ := softReset_mem (s.taken rest)
  have hst := fun i hi => softReset_records (s.taken rest) (i := i) hi
  have hlanes := softReset_lanesOf (s.taken rest)
  have htold := softReset_told (s.taken rest) line (by rw [hline, hgone]; rfl)
  have hkeep : (s.taken rest).softReset.resetN = s.resetN ∧ (s.taken rest).softReset.pending = s.pending := by simp
  have hx := exec_of_decision h (by simp) hd
  obtain ⟨u, hu⟩ : ∃ u, u = (s.taken rest).softReset := ⟨_, rfl⟩
  rw [← hu] at b1 b2 b3 b4 b6 b7 b8 f1 f2 f3 o1 o2 o3 o4 o5 o6 m1 m2 htold hkeep hx
  simp only [← hu] at b5 hst hlanes
  have hcli : (u.pushOut (.reply r.typ r.tag (.code .ok))).cli
      = { s.answered r rest (.code .ok) with clShortRecords := 0, clBadDirection := 0 } := by
    rw [pushOut_cli, b2, b1, b6]
    rfl
  have hg : (s.taken rest).goneOf (s.taken rest).ord.outstanding = gone := hgone.symm
  have hp : (s.taken rest).polledStations = polled := hpolled.symm
  rw [hg, hp] at htold
  refine ⟨_, hx, hcli, b1, f1, hlanes, f2, fun he => ?_, f3.1, f3.2.1, f3.2.2.1, f3.2.2.2.1, f3.2.2.2.2.1,
    f3.2.2.2.2.2.1, f3.2.2.2.2.2.2, o1, o2, o3, o4, o5, o6, m1, htold, ?_, ?_, ?_, b3, b4, b5, b6, b7, b8, hkeep⟩
  · refine f2.trans (List.filter_eq_nil_iff.mpr fun e hmem => ?_)
    obtain ⟨i, hi, f, hf, hs⟩ := he e hmem
    simp only [Bool.not_eq_true', Bool.not_eq_false]
    exact List.any_eq_true.mpr ⟨f, List.mem_flatMap.mpr ⟨i, List.mem_range.mpr hi, hf⟩, by simp [hs]⟩
  · exact fun i hi hl hp hc => ⟨(hst i hi).1 hl hp hc, m2 i hl hp hc⟩
  · exact fun i hi => (hst i hi).2.1
  · exact fun i hi => (hst i hi).2.2

end Sys2Proof.Machine
end

section
/-! The commands of STT: ADMIT, RELEASE, SET_WEIGHT and HOLD (R4 to R11), check by check. -/
namespace Sys2Proof.Machine

/-! ## ADMIT -/

theorem decideAdmit_badRange {s : State} {b : List Byte} {a : AdmitFields} (hm : s.mod.mode ≠ .halted)
    (ha : a = parseAdmit b)
    (h : 511 < a.index ∨ a.weight < 1 ∨ 64 < a.weight ∨ (a.rate ≠ 0 ∧ (a.rate < 2 ∨ 2400 < a.rate))) :
    decideAdmit s b = refuse s .badRange := by
  unfold decideAdmit
  rw [← ha, if_neg hm, if_pos]
  simp [stationIndex, weightOk, inRange, Config.stationCount, Config.minRate, Config.maxRate]
  omega

/-- The checks of ADMIT behind its ranges (R4, R5). -/
theorem decideAdmit_inRange {s : State} {b : List Byte} {a : AdmitFields} (hm : s.mod.mode ≠ .halted)
    (ha : a = parseAdmit b) (h1 : a.index ≤ 511) (h2 : 1 ≤ a.weight) (h3 : a.weight ≤ 64)
    (h4 : a.rate = 0 ∨ 2 ≤ a.rate ∧ a.rate ≤ 2400) :
    decideAdmit s b = if a.index = 0 ∨ (s.station a.index).state ≠ .vacant ∨ LinkNote.unbind a.index ∈ s.stt.linkNotes
      then refuse s .badState
      else accept ((s.updStation a.index (Station.admitted s.mod.config a)).formNote (.bind a.index a.address)) := by
  unfold decideAdmit
  rw [← ha, if_neg hm, if_neg]
  · by_cases h5 : a.index = 0
    · simp [h5]
    · by_cases h6 : (s.station a.index).state = .vacant <;> simp [h5, h6]
  · simp [stationIndex, weightOk, inRange, Config.stationCount, Config.minRate, Config.maxRate]
    omega

/-- What joins the line for the MAC leaves the rest of RLI and ORD alone (R183). -/
theorem formNote_frame (s : State) (n : LinkNote) :
    { (s.formNote n).rli with outbound := s.rli.outbound } = s.rli
      ∧ { (s.formNote n).ord with cancelPending := s.ord.cancelPending } = s.ord := by
  simp

/-- Settles O20, check by check. -/
theorem admitMakesAStationIdle : Obligations.AdmitMakesAStationIdle := by
  unfold Obligations.AdmitMakesAStationIdle
  intro s r rest a h hm ha
  refine ⟨fun hr => exec_unchanged h (by simp) (decideAdmit_badRange hm ha hr), fun h1 h2 h3 h4 => ?_⟩
  have hd := decideAdmit_inRange (s := s.taken rest) hm ha h1 h2 h3 h4
  simp only [taken_keeps] at hd
  refine ⟨fun hb => ?_, fun h5 h6 h7 => ?_⟩
  · rw [if_pos hb] at hd
    exact exec_unchanged h (by simp) hd
  · have hi : a.index < 512 := by omega
    rw [if_neg (by simp [h5, h6, h7])] at hd
    have hx := exec_answered h (by simp) hd (by simp) (by simp) (by simp)
    obtain ⟨v, hv⟩ : ∃ v, v = (s.taken rest).updStation a.index (Station.admitted s.mod.config a) := ⟨_, rfl⟩
    have hst : ∀ j, v.station j = if a.index = j ∧ j < 512 then (s.station j).admitted s.mod.config a
        else s.station j := fun j => by rw [hv]; exact updStation_station ..
    have hl : v.radioLine = s.radioLine := by rw [hv]; rfl
    have hk : v.rli = s.rli ∧ v.ord = s.ord ∧ v.stt.radioIgnored = s.stt.radioIgnored ∧ v.fpl = s.fpl
        ∧ v.rck = s.rck ∧ v.coh = s.coh ∧ v.sel = s.sel ∧ v.mgd = s.mgd ∧ v.mod = s.mod ∧ v.resetN = s.resetN
        ∧ v.pending = s.pending := by simp [hv]
    rw [← hv] at hx
    obtain ⟨f1, f2⟩ := formNote_frame v (.bind a.index a.address)
    have f3 := formNote_radioLine v (.bind a.index a.address)
    have f4 := formNote_radioServed v (.bind a.index a.address)
    have f5 := formNote_keeps v (.bind a.index a.address)
    generalize v.formNote (.bind a.index a.address) = u at *
    simp only [hk, hl] at f1 f2 f3 f5
    have f6 : ∀ j, u.station j = v.station j := by simp [f5]
    refine ⟨_, hx, rfl, ?_, fun j hj => ?_, ?_, f3, f4, f1, f2, ?_⟩
    · exact (f6 _).trans ((hst _).trans (if_pos ⟨rfl, hi⟩))
    · exact (f6 _).trans ((hst _).trans (if_neg fun e => hj e.1.symm))
    · simp [f5]
    · simp [f5]

/-! ## RELEASE -/

theorem decideRelease_checks {s : State} {b : List Byte} {i : Nat} (hm : s.mod.mode ≠ .halted)
    (hi : i = field b 0 2) :
    decideRelease s b = if 511 < i then refuse s .badRange
      else if i = 0 ∨ (s.station i).state = .vacant ∨ (s.station i).state = .leaving then refuse s .badState
      else accept ((s.releaseStation i).returnLanes i .released allLanes) := by
  unfold decideRelease
  rw [← hi, if_neg hm]
  by_cases h1 : 511 < i
  · rw [if_pos h1, if_pos (by simp [stationIndex, Config.stationCount]; omega)]
  · rw [if_neg h1, if_neg (by simp [stationIndex, Config.stationCount]; omega)]
    by_cases h2 : i = 0 ∨ (s.station i).state = .vacant ∨ (s.station i).state = .leaving
    · rw [if_pos h2, if_pos (by simp [State.admittedClient]; tauto)]
    · rw [if_neg h2, if_neg (by simp [State.admittedClient]; tauto)]

/-- The three lanes of a station, one behind the other (R40). -/
theorem flatMap_allLanes (s : State) (i : Nat) : allLanes.flatMap (s.lane i) = (s.lanesOf i).inOrder := by
  simp [allLanes, Lanes.inOrder, State.lane, Lanes.get]

/-- Settles O21, check by check. -/
theorem releaseReturnsTheFrames : Obligations.ReleaseReturnsTheFrames := by
  unfold Obligations.ReleaseReturnsTheFrames
  intro s r rest i h hm hi
  have hd := decideRelease_checks (s := s.taken rest) hm hi
  simp only [taken_keeps] at hd
  refine ⟨fun h1 => ?_, fun h1 h2 => ?_, fun h1 h2 h3 h4 => ?_⟩
  · rw [if_pos h1] at hd
    exact exec_unchanged h (by simp) hd
  · rw [if_neg (by omega), if_pos h2] at hd
    exact exec_unchanged h (by simp) hd
  · have hlt : i < 512 := by omega
    rw [if_neg (by omega), if_neg (by simp [h2, h3, h4])] at hd
    have hx := exec_answered h (by simp) hd (by simp) (by simp) (by simp)
    obtain ⟨a1, a2, a3, a4, a5, a6⟩ := releaseStation_spec (s.taken rest) i hlt
    have ak := releaseStation_keeps (s.taken rest) i
    generalize (s.taken rest).releaseStation i = v at *
    obtain ⟨q1, q2, q3, q4⟩ := returnLanes_quiet allLanes v i .released h2 a5 a6
    have qr := returnLanes_returnList v i .released allLanes (by decide)
    have qe := returnLanes_expiry v i .released allLanes (by decide)
    have ql := fun j => returnLanes_lane v i j .released allLanes
    have qk := returnLanes_keeps v i .released allLanes
    generalize v.returnLanes i .released allLanes = u at *
    simp only [taken_keeps] at ak a1 a2 a3 a4
    have hst : ∀ j, u.station j = v.station j := fun j => by simp [State.station, q1]
    have hl : u.radioLine = v.radioLine := by simp [State.radioLine, q1, q3, q4]
    have hs : u.radioServed ↔ v.radioServed := by simp [State.radioServed, State.radioFree, q1, q3, q4]
    simp only [flatMap_allLanes, ak] at qr qe ql
    have hlanes : ∀ j, u.lanesOf j = if j = i then .empty else s.lanesOf j := by
      intro j
      apply Lanes.ext_get
      intro l
      refine (ql j l).trans ?_
      by_cases hj : j = i
      · rw [if_pos ⟨hj, mem_allLanes l⟩, if_pos hj]
        cases l <;> rfl
      · rw [if_neg fun e => hj e.1, if_neg hj]
        rfl
    refine ⟨_, hx, rfl, fun h0 => ?_, fun h0 => ?_, fun j hj => (hst j).trans (a3 j hj), ?_, q2.trans a4, qr, qe,
      (hlanes i).trans (if_pos rfl), fun j hj => (hlanes j).trans (if_neg hj), ?_, ?_, ?_, ?_⟩
    · exact ⟨(hst i).trans (a1 h0).1, hl.trans (a1 h0).2.1, hs.mpr (a1 h0).2.2⟩
    · obtain ⟨e1, e2, e3, e4⟩ := a2 h0
      exact ⟨(hst i).trans e1, (congrArg Stt.linkNotes q1).trans e2, q3.trans e3, q4.trans e4⟩
    · simp [qk, ak]
    · simp [qk, ak]
    · simp [q3, ak]
    · simp [q4, ak]
    · simp [qk, ak]

/-! ## SET_WEIGHT and HOLD -/

theorem atOnce_iff (s : State) (b : Bool) : s.atOnce b = true ↔ b = true ∨ s.mod.mode = .ready := by
  simp [State.atOnce]

/-- An index that RELEASE, SET_WEIGHT and HOLD accept (R7, R9, R10). -/
theorem admittedClient_iff (s : State) (i : Nat) :
    s.admittedClient i = true ↔ i ≠ 0 ∧ (s.station i).state ≠ .vacant ∧ (s.station i).state ≠ .leaving := by
  simp [State.admittedClient, and_assoc]

theorem decideSetWeight_checks {s : State} {b : List Byte} {c : StationChange} (hm : s.mod.mode ≠ .halted)
    (hc : c = parseStationChange b) :
    decideSetWeight s b = if 511 < c.index ∨ c.value < 1 ∨ 64 < c.value then refuse s .badRange
      else if c.index = 0 ∨ (s.station c.index).state = .vacant ∨ (s.station c.index).state = .leaving
        then refuse s .badState
      else accept (s.updStation c.index fun x =>
        if c.immediate = true ∨ s.mod.mode = .ready then { x with weight := c.value, stagedWeight := none }
        else { x with stagedWeight := some c.value }) := by
  have h1 : (!stationIndex c.index || !weightOk c.value) = true ↔ 511 < c.index ∨ c.value < 1 ∨ 64 < c.value := by
    simp [stationIndex, weightOk, inRange, Config.stationCount]
    omega
  have h2 : (!s.admittedClient c.index) = true ↔
      c.index = 0 ∨ (s.station c.index).state = .vacant ∨ (s.station c.index).state = .leaving := by
    rw [Bool.not_eq_true', ← Bool.not_eq_true, admittedClient_iff]
    tauto
  unfold decideSetWeight
  dsimp only
  rw [← hc, if_neg hm]
  simp only [h1, h2, atOnce_iff]

/-- Settles O22, check by check. -/
theorem setWeightAppliesOrStages : Obligations.SetWeightAppliesOrStages := by
  unfold Obligations.SetWeightAppliesOrStages
  intro s r rest c h hc
  refine ⟨fun hm => exec_unchanged h (by simp) (if_pos hm), fun hm h1 => ?_,
    fun hm h1 h2 h3 => ⟨fun h4 => ?_, fun h4 h5 h6 => ?_⟩⟩
  all_goals
    have hd := decideSetWeight_checks (s := s.taken rest) hm hc
    simp only [taken_keeps] at hd
  · rw [if_pos h1] at hd
    exact exec_unchanged h (by simp) hd
  · rw [if_neg (by omega), if_pos h4] at hd
    exact exec_unchanged h (by simp) hd
  · rw [if_neg (by omega), if_neg (by simp [h4, h5, h6])] at hd
    exact exec_answered h (by simp) hd rfl rfl rfl

theorem decideHold_checks {s : State} {b : List Byte} {c : StationChange} (hm : s.mod.mode ≠ .halted)
    (hc : c = parseStationChange b) :
    decideHold s b = if 511 < c.index ∨ 1 < c.value then refuse s .badRange
      else if c.index = 0 ∨ (s.station c.index).state = .vacant ∨ (s.station c.index).state = .leaving
        then refuse s .badState
      else accept (if c.immediate = true ∨ s.mod.mode = .ready then s.applyHold c.index (c.value == 1)
        else s.updStation c.index fun x => { x with stagedHold := some (c.value == 1) }) := by
  have h1 : (!stationIndex c.index || !inRange 0 1 c.value) = true ↔ 511 < c.index ∨ 1 < c.value := by
    simp [stationIndex, inRange, Config.stationCount]
    omega
  have h2 : (!s.admittedClient c.index) = true ↔
      c.index = 0 ∨ (s.station c.index).state = .vacant ∨ (s.station c.index).state = .leaving := by
    rw [Bool.not_eq_true', ← Bool.not_eq_true, admittedClient_iff]
    tauto
  unfold decideHold
  dsimp only
  rw [← hc, if_neg hm]
  simp only [h1, h2, atOnce_iff]

/-- Settles O23, check by check; the reply behind a run is as one placed before it. -/
theorem holdAppliesOrStages : Obligations.HoldAppliesOrStages := by
  unfold Obligations.HoldAppliesOrStages
  intro s r rest c v h hm hc hv
  have hd := decideHold_checks (s := s.taken rest) hm hc
  simp only [taken_keeps, ← hv] at hd
  refine ⟨fun h1 => ?_, fun h1 h2 => ⟨fun h3 => ?_, fun h3 h4 h5 => ⟨fun h6 h7 => ?_, fun t h6 ht => ?_⟩⟩⟩
  · rw [if_pos h1] at hd
    exact exec_unchanged h (by simp) hd
  · rw [if_neg (by omega), if_pos h3] at hd
    exact exec_unchanged h (by simp) hd
  · rw [if_neg (by omega), if_neg (by simp [h3, h4, h5]), if_neg (by simp [h6, h7])] at hd
    exact exec_answered h (by simp) hd rfl rfl rfl
  · rw [if_neg (by omega), if_neg (by simp [h3, h4, h5]), if_pos h6] at hd
    have hx := exec_of_decision h (by simp) hd
    have hp : ((s.taken rest).updStation c.index fun x => { x with held := v, stagedHold := none }).pushOut
        (.reply r.typ r.tag (.code .ok)) = t := by
      rw [ht]
      refine pushOut_answered (s := s) (rest := rest) ?_ ?_ ?_ _ <;> rfl
    refine hx.trans ?_
    unfold State.applyHold
    simp only [taken_keeps, Bool.and_eq_true, Bool.not_eq_true']
    by_cases hh : (s.station c.index).held = true ∧ v = false
    · rw [if_pos hh, if_pos hh, selectionRun_pushOut, hp]
    · rw [if_neg hh, if_neg hh, hp]

end Sys2Proof.Machine
end

section
/-! ENQUEUE, record by record (R3, R27, R28, R44): the checks of one frame record, and the frame it queues. -/
namespace Sys2Proof.Machine

/-! ## The checks -/

/-- The lane a record is offered to, and when it names none (R27, R28). -/
theorem frameLane_cases (f : FrameFields) :
    (2 < f.lane → frameLane f = none)
      ∧ (f.lane ≤ 2 → frameLane f = some (if f.station = 0 then .bulk else (laneOf f.lane).getD .bulk)) := by
  have hn : 2 < f.lane → laneOf f.lane = none := fun h => by
    unfold laneOf
    split
    iterate 3 omega
    rfl
  have hs : f.lane ≤ 2 → ∃ k, laneOf f.lane = some k := fun h => by
    obtain h | h | h : f.lane = 0 ∨ f.lane = 1 ∨ f.lane = 2 := by omega
    all_goals exact ⟨_, congrArg laneOf h⟩
  refine ⟨fun h => by simp [frameLane, hn h], fun h => ?_⟩
  obtain ⟨k, hk⟩ := hs h
  simp [frameLane, hk]

/-- The checks of one frame record, in their order (R27). -/
theorem frameRefusal_checks (s : State) (f : FrameFields) (l : Lane)
    (hl : l = if f.station = 0 then .bulk else (laneOf f.lane).getD .bulk) :
    s.frameRefusal f = if 511 < f.station then some .badRange
      else if (s.station f.station).state = .vacant ∨ (s.station f.station).state = .leaving then some .notAdmitted
      else if f.length < 1 ∨ 12000 < f.length ∨ 2 < f.lane ∨ 4095 < f.lifetimeMs then some .badRange
      else if s.mod.config.laneLimit ≤ (s.lane f.station l).length then some .full
      else if s.fpl.freeEntries = 0 then some .full
      else none := by
  have h1 : (!stationIndex f.station) = true ↔ 511 < f.station := by
    simp [stationIndex, Config.stationCount]
    omega
  have h2 : (!inRange 1 Config.maxFrameLength f.length || decide (Config.maxLifetimeMs < f.lifetimeMs)) = true ↔
      f.length < 1 ∨ 12000 < f.length ∨ 4095 < f.lifetimeMs := by
    simp [inRange, Config.maxFrameLength, Config.maxLifetimeMs]
    omega
  obtain ⟨hn, hs⟩ := frameLane_cases f
  unfold State.frameRefusal
  simp only [h1]
  by_cases h3 : 2 < f.lane
  · simp [hn h3, h3]
  · rw [hs (by omega), ← hl]
    simp only [h2, h3, false_or]

/-! ## The accepted frame -/

/-- What an accepted frame changes (R3, R28, R44, R56). -/
theorem acceptFrame_spec (s : State) (f : Frame) (hi : f.station < 512) :
    (∀ j k, (s.acceptFrame f).lane j k
        = if (j, k) = (f.station, f.lane) then s.lane f.station f.lane ++ [f] else s.lane j k)
      ∧ (s.acceptFrame f).fpl = { s.fpl with
          freeEntries := s.fpl.freeEntries - 1, lanes := (s.acceptFrame f).fpl.lanes
          expiry := joinExpiry s.fpl.expiry f, nextSequence := s.fpl.nextSequence + 1
          framesAccepted := min (s.fpl.framesAccepted + 1) 4294967295 }
      ∧ (∀ j, (s.acceptFrame f).station j
        = if j = f.station ∧ j ≠ 0 ∧ (s.station j).state = .idle ∧ s.lane j f.lane = []
          then (s.station j).resumed .backlogged s.rck.clocksRunning else s.station j)
      ∧ (s.acceptFrame f).sel = { s.sel with
          active := if f.station ≠ 0 ∧ (s.station f.station).state = .idle ∧ s.lane f.station f.lane = []
            ∧ f.station ∉ s.sel.active then s.sel.active ++ [f.station] else s.sel.active
          prompt := if f.station ≠ 0 ∧ f.lane = .prompt ∧ s.lane f.station f.lane = [] ∧ f.station ∉ s.sel.prompt
            ∧ ((s.station f.station).state = .idle ∨ (s.station f.station).state = .backlogged)
            then s.sel.prompt ++ [f.station] else s.sel.prompt
          groupDue := if f.station = 0 ∧ s.lane f.station f.lane = [] ∧ s.dozingCount = 0 then true
            else s.sel.groupDue } := by
  obtain ⟨t, ht⟩ : ∃ t, t = (s.setLane f.station f.lane (s.lane f.station f.lane ++ [f])).updFpl fun p =>
    { p with
      freeEntries := p.freeEntries - 1
      expiry := joinExpiry p.expiry f
      nextSequence := p.nextSequence + 1
      framesAccepted := satAdd p.framesAccepted 1 } := ⟨_, rfl⟩
  have hlane : ∀ j k, t.lane j k
      = if (j, k) = (f.station, f.lane) then s.lane f.station f.lane ++ [f] else s.lane j k := by
    intro j k
    rw [ht]
    refine (setLane_lane s f.station j f.lane k _).trans ?_
    by_cases h : (j, k) = (f.station, f.lane)
    · rw [if_pos h, if_pos ⟨h, by rw [(Prod.mk.inj h).1]; exact hi⟩]
    · rw [if_neg h, if_neg fun e => h e.1]
  have hfpl : t.fpl = { s.fpl with
      freeEntries := s.fpl.freeEntries - 1, lanes := t.fpl.lanes
      expiry := joinExpiry s.fpl.expiry f, nextSequence := s.fpl.nextSequence + 1
      framesAccepted := min (s.fpl.framesAccepted + 1) 4294967295 } := by
    rw [ht]
    rfl
  have hst : ∀ j, t.station j = s.station j := fun j => by rw [ht]; rfl
  have hsel : t.sel = s.sel := by rw [ht]; rfl
  have hrck : t.rck = s.rck := by rw [ht]; rfl
  have hdoz : t.dozingCount = s.dozingCount := by rw [ht]; rfl
  have he : s.acceptFrame f = if s.lane f.station f.lane = [] then t.laneNonempty f.station f.lane else t := by
    rw [ht]
    unfold State.acceptFrame
    simp only [List.isEmpty_iff]
  rw [he]
  clear ht he
  by_cases hq : s.lane f.station f.lane = []
  · have hk := laneNonempty_keeps t f.station f.lane
    have hn := fun j => laneNonempty_station t f.station j f.lane hi
    have hs := laneNonempty_sel t f.station f.lane
    rw [if_pos hq]
    generalize t.laneNonempty f.station f.lane = u at *
    simp only [hst, hrck] at hn
    simp only [hsel, hst, hdoz] at hs
    refine ⟨fun j k => ?_, ?_, fun j => ?_, hs.trans ?_⟩
    · rw [← hlane]
      simp [hk]
    · have hf : u.fpl = t.fpl := by simp [hk]
      rw [hf]
      exact hfpl
    · rw [hn j]
      by_cases hj : j = f.station
      · subst hj
        simp [hq]
      · simp [hj]
    · simp [hq]
  · have hj : ∀ j, ¬ (j = f.station ∧ j ≠ 0 ∧ (s.station j).state = .idle ∧ s.lane j f.lane = []) := by
      rintro j ⟨rfl, -, -, h⟩
      exact hq h
    rw [if_neg hq]
    simp only [hq, false_and, and_false, if_false]
    exact ⟨hlane, hfpl, fun j => by rw [if_neg (hj j), hst], hsel⟩

/-- Settles O25: the checks in their order, and the frame that passes them. -/
theorem frameRecordsAreChecked : Obligations.FrameRecordsAreChecked := by
  unfold Obligations.FrameRecordsAreChecked
  intro s f l hl
  have hr := frameRefusal_checks s f l hl
  have hres : (s.offerFrame f).2 = (s.frameRefusal f).getD .ok := by
    unfold State.offerFrame
    split <;> rename_i h <;> rw [h] <;> rfl
  refine ⟨?_, fun hne => ?_, fun t x hok ht hx => ?_⟩
  · rw [hres, hr]
    split_ifs <;> rfl
  · unfold State.offerFrame at hne ⊢
    split
    · rfl
    · rename_i h
      rw [h] at hne
      exact absurd rfl hne
  · obtain ⟨hi, hln, hn⟩ : f.station < 512 ∧ f.lane ≤ 2 ∧ s.frameRefusal f = none := by
      rw [hres, hr] at hok
      rw [hr]
      split_ifs at hok ⊢ with h1 h2 h3 h4 h5
      iterate 5 exact absurd hok (by simp)
      exact ⟨by omega, by omega, rfl⟩
    have hfl : (frameLane f).getD .bulk = l := by rw [(frameLane_cases f).2 hln, ← hl]; rfl
    have he : t = s.acceptFrame x := by
      rw [ht, hx]
      unfold State.offerFrame
      rw [hn, hfl]
      rfl
    have hxs : x.station = f.station ∧ x.lane = l := by rw [hx]; exact ⟨rfl, rfl⟩
    have hk := acceptFrame_keeps s x
    obtain ⟨a1, a2, a3, a4⟩ := acceptFrame_spec s x (by rw [hxs.1]; exact hi)
    rw [← he] at hk a2 a4
    simp only [← he, hxs.1, hxs.2] at a1 a3 a4
    have h0 : f.station = 0 → l = .bulk := fun h => by rw [hl, if_pos h]
    refine ⟨(a1 _ _).trans (if_pos rfl), fun j k h => (a1 j k).trans (if_neg h), a2, fun j => ?_, ?_, ?_, ?_, ?_⟩
    · exact a3 j
    · rw [a4]
    · rw [a4]
    · rw [a4]
      by_cases h : f.station = 0
      · rw [h0 h, h]
      · simp [h]
    · simp [hk]

end Sys2Proof.Machine
end

section
/-! FLUSH (R38): the lanes a mask names, and what their return leaves. -/
namespace Sys2Proof.Machine

/-! ## The lanes of a mask -/

/-- The lanes a mask names, in the order PROMPT, BULK, SLACK. -/
def lanesNamed (mask : Nat) : List Lane :=
  (if mask.testBit 0 then [.prompt] else []) ++ (if mask.testBit 1 then [.bulk] else [])
    ++ (if mask.testBit 2 then [.slack] else [])

theorem maskLanes_eq {mask : Nat} (h0 : mask ≠ 0) (h7 : mask ≤ 7) : maskLanes mask = some (lanesNamed mask) := by
  unfold maskLanes lanesNamed
  rw [if_neg (by simp; omega)]

theorem maskLanes_none {mask : Nat} (h : mask = 0 ∨ 7 < mask) : maskLanes mask = none := by
  unfold maskLanes
  rw [if_pos (by simpa using h)]

theorem lanesNamed_nodup (mask : Nat) : (lanesNamed mask).Nodup := by
  unfold lanesNamed
  cases mask.testBit 0 <;> cases mask.testBit 1 <;> cases mask.testBit 2 <;> decide

theorem mem_lanesNamed (mask : Nat) :
    (.prompt ∈ lanesNamed mask ↔ mask.testBit 0 = true) ∧ (.bulk ∈ lanesNamed mask ↔ mask.testBit 1 = true)
      ∧ (.slack ∈ lanesNamed mask ↔ mask.testBit 2 = true) := by
  unfold lanesNamed
  cases mask.testBit 0 <;> cases mask.testBit 1 <;> cases mask.testBit 2 <;> decide

/-- The entries of the lanes a mask names. -/
def State.namedFrames (s : State) (i mask : Nat) : List Frame :=
  (lanesNamed mask).flatMap (s.lane i)

theorem namedFrames_eq (s : State) (i mask : Nat) : s.namedFrames i mask =
    (if mask.testBit 0 then s.lane i .prompt else []) ++ (if mask.testBit 1 then s.lane i .bulk else [])
      ++ (if mask.testBit 2 then s.lane i .slack else []) := by
  unfold State.namedFrames lanesNamed
  simp only [List.flatMap_append, apply_ite (List.flatMap (s.lane i)), List.flatMap_cons, List.flatMap_nil,
    List.append_nil]

theorem queuedIn_lanesNamed (s : State) (i mask : Nat) :
    s.queuedIn i (lanesNamed mask) = (s.namedFrames i mask).length := by
  simp [State.queuedIn, State.namedFrames, List.length_flatMap]

theorem holdsAny_iff (s : State) (i : Nat) (ls : List Lane) : s.holdsAny i ls = true ↔ ls.flatMap (s.lane i) ≠ [] := by
  simp [State.holdsAny, List.flatMap_eq_nil_iff]

/-- The prompt list behind returned lanes of a mask (R3, R99). -/
theorem returnLanes_lanesNamed_prompt (s : State) (i mask : Nat) (x : FrameResult) :
    (s.returnLanes i x (lanesNamed mask)).sel.prompt =
      if i ≠ 0 ∧ (s.station i).state = .backlogged ∧ (if mask.testBit 0 then s.lane i .prompt else []) ≠ []
        then s.sel.prompt.erase i else s.sel.prompt := by
  by_cases h0 : mask.testBit 0 = true
  · obtain ⟨ls, hls, hm⟩ : ∃ ls, lanesNamed mask = .prompt :: ls ∧ Lane.prompt ∉ ls := by
      refine ⟨_, by unfold lanesNamed; rw [if_pos h0, List.append_assoc]; rfl, ?_⟩
      cases mask.testBit 1 <;> cases mask.testBit 2 <;> decide
    have he : s.returnLanes i x (.prompt :: ls) = (s.returnLane i x .prompt).returnLanes i x ls := rfl
    rw [hls, he, returnLanes_prompt_of_not_mem _ _ _ _ hm, returnLane_prompt]
    simp [h0]
  · rw [returnLanes_prompt_of_not_mem _ _ _ _ fun h => h0 ((mem_lanesNamed mask).1.mp h)]
    simp [h0]

/-! ## FLUSH -/

theorem decideFlush_checks {s : State} {b : List Byte} {i mask : Nat} (hm : s.mod.mode ≠ .halted)
    (hi : i = field b 0 2) (hk : mask = field b 2 1) :
    decideFlush s b = if 511 < i ∨ mask = 0 ∨ 7 < mask then refuse s .badRange
      else if (s.station i).state = .vacant then refuse s .badState
      else (s.returnLanes i .flushed (lanesNamed mask), .flush (s.namedFrames i mask).length) := by
  have h1 : (!stationIndex i) = true ↔ 511 < i := by
    simp [stationIndex, Config.stationCount]
    omega
  have hf : parseFlush b = { station := i, mask := mask } := by rw [hi, hk]; rfl
  unfold decideFlush
  rw [hf, if_neg hm]
  simp only [h1]
  by_cases h2 : 511 < i
  · rw [if_pos h2, if_pos (Or.inl h2)]
  · rw [if_neg h2]
    by_cases h3 : mask = 0 ∨ 7 < mask
    · rw [maskLanes_none h3, if_pos (Or.inr h3)]
    · rw [maskLanes_eq (by omega) (by omega), if_neg (by omega), ← queuedIn_lanesNamed]

/-- Settles O26, check by check. -/
theorem flushReturnsTheNamedLanes : Obligations.FlushReturnsTheNamedLanes := by
  unfold Obligations.FlushReturnsTheNamedLanes
  intro s r rest i mask h hm hi hk
  have hd := decideFlush_checks (s := s.taken rest) hm hi hk
  have hnf : (s.taken rest).namedFrames i mask = s.namedFrames i mask := rfl
  simp only [taken_keeps, hnf] at hd
  refine ⟨fun h1 => ?_, fun h1 h2 h3 h4 => ?_, fun p b k h1 h2 h3 h4 hp hb hs => ?_⟩
  · rw [if_pos h1] at hd
    exact exec_unchanged h (by simp) hd
  · rw [if_neg (by omega), if_pos h4] at hd
    exact exec_unchanged h (by simp) hd
  · rw [if_neg (by omega), if_neg h4] at hd
    have hx := exec_answered h (by simp) hd (by simp) (by simp) (by simp)
    have hfr : s.namedFrames i mask = p ++ b ++ k := by rw [namedFrames_eq, hp, hb, hs]
    have hany : (s.taken rest).holdsAny i (lanesNamed mask) = true ↔ p ++ b ++ k ≠ [] := by
      rw [holdsAny_iff, ← hfr]
      rfl
    have hnone : (s.taken rest).holdsAny i (lanesNamed mask) = false ↔ p ++ b ++ k = [] := by
      rw [← Bool.not_eq_true, hany, not_not]
    obtain ⟨m0, m1, m2⟩ := mem_lanesNamed mask
    have ql := fun j => returnLanes_lane (s.taken rest) i j .flushed (lanesNamed mask)
    have qr := returnLanes_returnList (s.taken rest) i .flushed _ (lanesNamed_nodup mask)
    have qe := returnLanes_expiry (s.taken rest) i .flushed _ (lanesNamed_nodup mask)
    have qs := fun j => returnLanes_station (s.taken rest) i j .flushed (lanesNamed mask)
    have qa := returnLanes_active (s.taken rest) i .flushed (lanesNamed mask)
    have qp := returnLanes_lanesNamed_prompt (s.taken rest) i mask .flushed
    have qo := returnLanes_poll (s.taken rest) i .flushed (lanesNamed mask)
    have qg := returnLanes_groupDue (s.taken rest) i .flushed (lanesNamed mask)
    have qsel := returnLanes_sel_rest (s.taken rest) i .flushed (lanesNamed mask)
    have qw := returnLanes_withdraw (lanesNamed mask) (s.taken rest) i .flushed
    have qn := returnLanes_radio (lanesNamed mask) (s.taken rest) i .flushed
    have qi := returnLanes_silent (lanesNamed mask) (s.taken rest) i .flushed
    have qk := returnLanes_keeps (s.taken rest) i .flushed (lanesNamed mask)
    have hfl : (lanesNamed mask).flatMap ((s.taken rest).lane i) = p ++ b ++ k := hfr
    rw [hfr] at hx
    generalize (s.taken rest).returnLanes i .flushed (lanesNamed mask) = u at *
    simp only [hany, hfl, taken_keeps, ← hp] at ql qr qe qs qa qp qo qg qsel qw qn qi qk
    have hl : ∀ (l : Lane) (c : Bool), (l ∈ lanesNamed mask ↔ c = true) →
        u.lane i l = if c = true then [] else s.lane i l :=
      fun l c hc => (ql i l).trans (if_congr (by simp [hc]) rfl rfl)
    refine ⟨_, hx, rfl, qr, ?_, ?_, ?_, fun j hj => ?_, qe, ?_, ?_, ?_, ?_, ?_, ?_⟩
    · exact hl _ _ m0
    · exact hl _ _ m1
    · exact hl _ _ m2
    · apply Lanes.ext_get
      intro l
      exact (ql j l).trans (if_neg fun e => hj e.1)
    · simp [qk]
    · exact qs
    · rw [qa, qp, qo, qg] at qsel
      exact qsel
    · exact fun h5 h6 h7 h8 h9 h10 => qw h5 h6 h7 h8 h9 h10
    · rintro (h5 | h5 | h5 | h5)
      · exact qn (Or.inl (hnone.mpr h5))
      · exact qn (Or.inr (Or.inl h5))
      · exact qn (Or.inr (Or.inr h5))
      · exact qi h5
    · simp [qk]

end Sys2Proof.Machine
end

section
/-! QUERY (R180, R192): the tables, how many of their entries a reply carries, and that the reply fits. -/
namespace Sys2Proof.Machine

/-- How many entries a table holds. -/
def State.tableLength (s : State) (t : QueryTable) : Nat :=
  match t with
  | .station => 512
  | .cohort => 32
  | .counters => 28
  | .activeList => s.sel.active.length
  | .outstanding => s.ord.outstanding.length
  | .quarantine => s.ord.quarantine.length

/-- The bytes of a table's summary and of one of its entries (R192). -/
def tableLayout (t : QueryTable) : Nat × Nat :=
  match t with
  | .station => (0, 44)
  | .cohort => (0, 26)
  | .counters => (0, 4)
  | .activeList => (18, 4)
  | .outstanding => (6, 24)
  | .quarantine => (2, 1)

/-- How many entries of a table fit in a reply (R180). -/
def tableFit (t : QueryTable) : Nat :=
  fitting (tableLayout t).1 (tableLayout t).2

theorem window_length {α : Type} (entries : List α) (start count fit : Nat) :
    (window entries start count fit).length = min (min count (entries.length - start)) fit := by
  simp only [window, List.length_take, List.length_drop]
  omega

theorem readTable_entryCount (s : State) (t : QueryTable) (start count : Nat) :
    (s.readTable t start count).entryCount = min (min count (s.tableLength t - start)) (tableFit t) := by
  have hc : s.counters.length = 28 := rfl
  cases t <;>
    simp [State.readTable, QueryBody.entryCount, window_length, State.tableLength, tableFit, tableLayout, hc,
      Config.stationCount, Config.cohortCount]

theorem activeSummary_length (a : ActiveSummary) : a.bytes.length = 18 := by
  simp [ActiveSummary.bytes, leBytes_length, signed32_length]

theorem outstandingSummary_length (a : OutstandingSummary) : a.bytes.length = 6 := by
  simp [OutstandingSummary.bytes, leBytes_length]

/-- The bytes of a table's reply behind the fixed part: its summary, and each entry in its layout (R192). -/
theorem readTable_bytes_length (s : State) (t : QueryTable) (start count : Nat) :
    (s.readTable t start count).bytes.length
      = (tableLayout t).1 + (tableLayout t).2 * (s.readTable t start count).entryCount := by
  cases t with
  | station => simp [State.readTable, QueryBody.bytes, QueryBody.entryCount, tableLayout,
      flatMap_length _ 44 stationRow_length]
  | cohort => simp [State.readTable, QueryBody.bytes, QueryBody.entryCount, tableLayout,
      flatMap_length _ 26 cohortRow_length]
  | counters => simp [State.readTable, QueryBody.bytes, QueryBody.entryCount, tableLayout,
      flatMap_length _ 4 (leBytes_length 4)]
  | activeList =>
    simp [State.readTable, QueryBody.bytes, QueryBody.entryCount, tableLayout, flatMap_length _ 4 activeRow_length,
      activeSummary_length]
  | outstanding =>
    simp [State.readTable, QueryBody.bytes, QueryBody.entryCount, tableLayout, flatMap_length _ 24 outRow_length,
      outstandingSummary_length]
  | quarantine =>
    simp [State.readTable, QueryBody.bytes, QueryBody.entryCount, tableLayout, leBytes_length]
    omega

/-- A QUERY reply fits in a body (R180). -/
theorem queryReply_fits (s : State) (t : QueryTable) (start count : Nat) :
    (Reply.query start (s.readTable t start count)).bytes.length ≤ 512 := by
  have hb := readTable_bytes_length s t start count
  have he : (s.readTable t start count).entryCount ≤ tableFit t := by
    rw [readTable_entryCount]
    exact min_le_right _ _
  have hl : (Reply.query start (s.readTable t start count)).bytes.length
      = 6 + (s.readTable t start count).bytes.length := by
    simp only [Reply.bytes, List.length_append, leBytes_length]
  generalize (s.readTable t start count).entryCount = n at *
  rw [hl, hb]
  cases t <;> simp only [tableLayout, tableFit, fitting, Config.maxBody] at he ⊢ <;> omega

/-- What QUERY decides of a code, a start and a count (R180). -/
theorem decideQuery_checks {s : State} {b : List Byte} {code start count : Nat} (hm : s.mod.mode ≠ .halted)
    (hc : code = field b 0 1) (hs : start = field b 2 2) (hn : count = field b 4 2) :
    (queryTableOf code = none → decideQuery s b = refuse s .badRange)
      ∧ ∀ t, queryTableOf code = some t → decideQuery s b = if s.lastStart t < start then refuse s .badRange
        else (s, .query start (s.readTable t start count)) := by
  have hq : parseQuery b = { table := queryTableOf code, start := start, count := count } := by
    rw [hc, hs, hn]
    rfl
  unfold decideQuery
  rw [hq, if_neg hm]
  exact ⟨fun h => by rw [h], fun t h => by rw [h]⟩

theorem queryTableOf_none {code : Nat} (h : 5 < code) : queryTableOf code = none := by
  unfold queryTableOf
  split
  iterate 6 omega
  rfl

theorem cohortRow_range (s : State) (c : Nat) :
    ((s.cohort c).span = 0 → (s.cohortRow c).firstIndex = 0 ∧ (s.cohortRow c).lastIndex = 0)
      ∧ ∀ p, p < 10 → (s.cohort c).span.testBit p = true → (∀ q, q < p → (s.cohort c).span.testBit q = false) →
        (s.cohortRow c).firstIndex = (s.cohort c).span - 2 ^ p
          ∧ (s.cohortRow c).lastIndex = (s.cohort c).span - 2 ^ p + 2 ^ p - 1 := by
  refine ⟨fun h => ?_, fun p hp hb hl => ?_⟩
  · have h0 : spanRange 0 = none := by decide
    simp [State.cohortRow, h, h0]
  · simp [State.cohortRow, spanRange_of_lowest hp hb hl]

/-- Settles O28, table by table. -/
theorem queryReadsATable : Obligations.QueryReadsATable := by
  unfold Obligations.QueryReadsATable
  intro s r rest code start count h hm hc hs hn
  obtain ⟨dn, ds⟩ := decideQuery_checks (s := s.taken rest) hm hc hs hn
  have hread : ∀ t, (s.taken rest).readTable t start count = s.readTable t start count := fun t => by cases t <;> rfl
  have hlast : ∀ t, (s.taken rest).lastStart t = s.lastStart t := fun t => by cases t <;> rfl
  refine ⟨fun h5 => ?_, fun tbl length last fit hmem ht => ?_, rfl, rfl, rfl, rfl, rfl, rfl, rfl, fun i => ?_,
    fun c => ⟨rfl, rfl, (cohortRow_range s c).1, (cohortRow_range s c).2⟩, rfl, fun i => rfl, rfl, fun o => rfl⟩
  · exact exec_unchanged h (by simp) (dn (queryTableOf_none h5))
  · obtain ⟨rfl, rfl, rfl⟩ : length = s.tableLength tbl ∧ last = s.lastStart tbl ∧ fit = tableFit tbl := by
      simp only [List.mem_cons, Prod.mk.injEq, List.not_mem_nil, or_false] at hmem
      rcases hmem with ⟨rfl, e⟩ | ⟨rfl, e⟩ | ⟨rfl, e⟩ | ⟨rfl, e⟩ | ⟨rfl, e⟩ | ⟨rfl, e⟩ <;> exact e
    have hd := ds tbl ht
    rw [hlast, hread] at hd
    refine ⟨fun h1 => ?_, fun h1 => ⟨?_, readTable_entryCount .., queryReply_fits ..⟩⟩
    · rw [if_pos h1] at hd
      exact exec_unchanged h (by simp) hd
    · rw [if_neg (by omega)] at hd
      exact exec_unchanged h (by simp) hd
  · rfl

end Sys2Proof.Machine
end

section
/-!
The slots of the radio outbound queue (R123, R183): what each of the arbiter's three sources places, and when it places
nothing.
-/
namespace Sys2Proof.Machine

theorem radioFree_pos_iff (s : State) : 0 < s.radioFree ↔ s.rli.outbound.length < 8 := by
  simp only [State.radioFree, Config.radioOutbound]
  omega

theorem radioFree_eq_zero_iff (s : State) : s.radioFree = 0 ↔ 8 ≤ s.rli.outbound.length := by
  simp only [State.radioFree, Config.radioOutbound]
  omega

/-! ## The CANCEL_ALL -/

theorem giveCancel_of_pending {s : State} (hc : s.ord.cancelPending = true) (hf : s.rli.outbound.length < 8) :
    s.giveCancel = { s with
      rli := { s.rli with outbound := s.rli.outbound ++ [.cancelAll] }
      ord := { s.ord with cancelPending := false } } := by
  have hp : 0 < s.radioFree := (radioFree_pos_iff s).mpr hf
  simp [State.giveCancel, hc, hp, State.updRli, State.updOrd]

theorem giveCancel_eq_self {s : State} (h : s.ord.cancelPending = false ∨ 8 ≤ s.rli.outbound.length) :
    s.giveCancel = s := by
  rw [← radioFree_eq_zero_iff] at h
  unfold State.giveCancel
  rw [if_neg]
  rcases h with h | h <;> simp [h]

/-! ## The link notes -/

theorem giveNotes_zero {s : State} {n : Nat} (h : s.notesServed n = 0) : s.giveNotes n = s := by
  simp [State.giveNotes, h, State.updRli, State.updStt]

theorem giveNotes_one {s : State} {n : LinkNote} {rest : List LinkNote} (hc : s.ord.cancelPending = false)
    (hn : s.stt.linkNotes = n :: rest) (hf : s.rli.outbound.length < 8) :
    s.giveNotes 1 = { s with
      rli := { s.rli with outbound := s.rli.outbound ++ [n.toRecord] }
      stt := { s.stt with linkNotes := rest } } := by
  have hp := (radioFree_pos_iff s).mpr hf
  have hk : s.notesServed 1 = 1 := by
    simp only [State.notesServed, hc, hn, List.length_cons]
    simp
    omega
  simp [State.giveNotes, hk, hn, State.updRli, State.updStt]

theorem notesServed_eq_zero {s : State} (k : Nat)
    (h : s.ord.cancelPending = true ∨ s.stt.linkNotes = [] ∨ 8 ≤ s.rli.outbound.length) : s.notesServed k = 0 := by
  rw [← radioFree_eq_zero_iff] at h
  unfold State.notesServed
  rcases h with h | h | h <;> simp [h]

/-! ## The held TX_ORDERs -/

theorem heldOrders_eq_nil {os : List Order} (h : ∀ o ∈ os, o.sent = .placed) : heldOrders os = [] := by
  simp only [heldOrders, List.filter_eq_nil_iff]
  intro o ho
  simp [h o ho]

/-- The oldest held order stands behind the placed ones. -/
theorem heldOrders_of_placed {pre post : List Order} {o : Order} (hp : ∀ p ∈ pre, p.sent = .placed)
    (ho : o.sent = .waiting) : heldOrders (pre ++ o :: post) = o :: heldOrders post := by
  have hn := heldOrders_eq_nil hp
  unfold heldOrders at hn ⊢
  simp [hn, ho]

theorem placeHeld_one {pre post : List Order} {o : Order} (hp : ∀ p ∈ pre, p.sent = .placed)
    (ho : o.sent = .waiting) : placeHeld 1 (pre ++ o :: post) = pre ++ { o with sent := .placed } :: post := by
  induction pre with
  | nil => simp [placeHeld, ho, placeHeld_zero]
  | cons p pre ih =>
    have hw : p.sent ≠ .waiting := by simp [hp p (by simp)]
    simp [placeHeld, hw, ih fun q hq => hp q (by simp [hq])]

theorem giveOrders_zero {s : State} {n : Nat} (h : s.ordersServed n = 0) : s.giveOrders n = s := by
  simp [State.giveOrders, h, placeHeld_zero, State.updRli, State.updOrd]

theorem ordersServed_eq_zero {s : State} (k : Nat)
    (h : s.ord.cancelPending = true ∨ s.stt.linkNotes ≠ [] ∨ 8 ≤ s.rli.outbound.length
      ∨ ∀ o ∈ s.ord.outstanding, o.sent = .placed) : s.ordersServed k = 0 := by
  rw [← radioFree_eq_zero_iff] at h
  unfold State.ordersServed
  rcases h with h | h | h | h
  · simp [h]
  · simp [h]
  · simp [h]
  · simp [heldOrders_eq_nil h]

theorem giveOrders_one {s : State} {pre post : List Order} {o : Order} (hc : s.ord.cancelPending = false)
    (hn : s.stt.linkNotes = []) (hf : s.rli.outbound.length < 8) (hos : s.ord.outstanding = pre ++ o :: post)
    (hp : ∀ p ∈ pre, p.sent = .placed) (ho : o.sent = .waiting) :
    s.giveOrders 1 = { s with
      rli := { s.rli with outbound := s.rli.outbound ++ [.txOrder o.toTxOrder] }
      ord := { s.ord with outstanding := pre ++ { o with sent := .placed } :: post } } := by
  have hr := (radioFree_pos_iff s).mpr hf
  have hh : heldOrders s.ord.outstanding = o :: heldOrders post := by rw [hos, heldOrders_of_placed hp ho]
  have hk : s.ordersServed 1 = 1 := by
    simp only [State.ordersServed, hc, hn, hh, List.length_cons]
    simp
    omega
  simp [State.giveOrders, hk, State.updRli, State.updOrd, hos, placeHeld_one hp ho, heldOrders_of_placed hp ho]

/-- Settles O34, source by source. -/
theorem radioSlotsAreGivenInOrder : Obligations.RadioSlotsAreGivenInOrder := by
  unfold Obligations.RadioSlotsAreGivenInOrder
  intro s h
  have hCancel : exec .cancelAll s = .next s.giveCancel := by simp [exec, execCancelAll, whenReleased_of_released _ h]
  have hNote : exec .linkNoteHanded s = .next (s.giveNotes 1) := by
    simp [exec, execLinkNoteHanded, whenReleased_of_released _ h]
  have hOrder : exec .txOrderPlaced s = .next (s.giveOrders 1) := by
    simp [exec, execTxOrderPlaced, whenReleased_of_released _ h]
  refine ⟨fun hc hf => ?_, fun hn => ?_, fun n rest hc hn hf => ?_, fun hn => ?_, fun pre o post hc hn hf hos hp ho => ?_,
    fun hn => ?_⟩
  · rw [hCancel, giveCancel_of_pending hc hf]
  · rw [hCancel, giveCancel_eq_self hn]
  · rw [hNote, giveNotes_one hc hn hf]
  · rw [hNote, giveNotes_zero (notesServed_eq_zero 1 hn)]
  · rw [hOrder, giveOrders_one hc hn hf hos hp ho]
    rfl
  · rw [hOrder, giveOrders_zero (ordersServed_eq_zero 1 hn)]

end Sys2Proof.Machine
end

section
/-!
DOZE, WAKE and POLL (R12 to R15): which stations a record may name, what the operations do to a dozing one, and the
three rows.
-/
namespace Sys2Proof.Machine

theorem joinTail_eq (q : List Nat) (i : Nat) : joinTail q i = if i ∈ q then q else q ++ [i] := rfl

theorem awakeOrDozing_of_client {s : State} {i : Nat} (h0 : i ≠ 0) (hi : i < 512)
    (hv : (s.station i).state ≠ .vacant) (hl : (s.station i).state ≠ .leaving) :
    s.awakeOrDozing i = some (s.station i).state := by
  rw [awakeOrDozing_eq, if_neg]
  push Not
  exact ⟨h0, hi, hv, hl⟩

theorem awakeOrDozing_none {s : State} {i : Nat}
    (h : i = 0 ∨ 512 ≤ i ∨ (s.station i).state = .vacant ∨ (s.station i).state = .leaving) :
    s.awakeOrDozing i = none := by
  rw [awakeOrDozing_eq, if_pos h]

theorem ignoreRadio_eq (s : State) : s.ignoreRadio
    = { s with stt := { s.stt with radioIgnored := min (s.stt.radioIgnored + 1) 4294967295 } } := rfl

/-- The index and the state of an awake or dozing client station, at the state a delivered record is taken in. -/
theorem awakeOrDozing_delivered {s : State} {i : Nat} {x : StationState} (rest : List MacRecord) (h0 : i ≠ 0)
    (hi : i < 512) (hx : (s.station i).state = x) (hv : x ≠ .vacant) (hl : x ≠ .leaving) :
    State.awakeOrDozing { s with rli := s.delivered rest } i = some x := by
  subst hx
  exact awakeOrDozing_of_client (s := { s with rli := s.delivered rest }) h0 hi hv hl

theorem exists_awake_delivered {s : State} {i : Nat} (rest : List MacRecord) (h0 : i ≠ 0) (hi : i < 512)
    (ha : (s.station i).state = .idle ∨ (s.station i).state = .backlogged) :
    ∃ x, State.awakeOrDozing { s with rli := s.delivered rest } i = some x ∧ x ≠ .dozing := by
  rcases ha with ha | ha
  · exact ⟨_, awakeOrDozing_delivered rest h0 hi ha (by simp) (by simp), by simp⟩
  · exact ⟨_, awakeOrDozing_delivered rest h0 hi ha (by simp) (by simp), by simp⟩

theorem awakeOrDozing_discarded {s : State} {i : Nat} (rest : List MacRecord)
    (h : i = 0 ∨ 512 ≤ i ∨ (s.station i).state = .vacant ∨ (s.station i).state = .leaving) :
    State.awakeOrDozing { s with rli := s.delivered rest } i = none :=
  awakeOrDozing_none (s := { s with rli := s.delivered rest }) h

/-! ## DOZE -/

theorem exec_doze {s : State} {rest : List MacRecord} {i : Nat} (h : s.Delivers (.doze i) rest) :
    exec .doze s = .next (State.takeDoze i { s with rli := s.delivered rest }) := by
  show execDoze s = _
  unfold execDoze
  rw [whenReleased_of_released _ h.1, deliver_of_delivers _ h rfl]

theorem takeDoze_of_awake {s : State} {i : Nat} {x : StationState} (h : s.awakeOrDozing i = some x)
    (hx : x ≠ .dozing) : s.takeDoze i = ((s.setStationState i .dozing).removeActive i).removePrompt i := by
  unfold State.takeDoze
  rw [h]
  cases x <;> first | rfl | exact absurd rfl hx

theorem takeDoze_of_dozing {s : State} {i : Nat} (h : s.awakeOrDozing i = some .dozing) : s.takeDoze i = s := by
  unfold State.takeDoze
  rw [h]

theorem takeDoze_of_none {s : State} {i : Nat} (h : s.awakeOrDozing i = none) : s.takeDoze i = s.ignoreRadio := by
  unfold State.takeDoze
  rw [h]

/-- Settles O41, by the state of the station the record names. -/
theorem dozeTakesAStationOffTheLists : Obligations.DozeTakesAStationOffTheLists := by
  unfold Obligations.DozeTakesAStationOffTheLists
  rintro s rest i x h rfl
  rw [exec_doze h]
  refine ⟨fun h0 hi ha => ?_, fun h0 hi hd => ?_, fun hn => ?_⟩
  · obtain ⟨x, hw, hx⟩ := exists_awake_delivered rest h0 hi ha
    rw [takeDoze_of_awake hw hx]
    rfl
  · rw [takeDoze_of_dozing (awakeOrDozing_delivered rest h0 hi hd (by simp) (by simp))]
  · rw [takeDoze_of_none (awakeOrDozing_discarded rest hn)]
    rfl

/-! ## WAKE -/

theorem exec_wake {s : State} {rest : List MacRecord} {i : Nat} (h : s.Delivers (.wake i) rest) :
    exec .wake s = .next (State.takeWake i { s with rli := s.delivered rest }) := by
  show execWake s = _
  unfold execWake
  rw [whenReleased_of_released _ h.1, deliver_of_delivers _ h rfl]

theorem takeWake_of_dozing {s : State} {i : Nat} (h : s.awakeOrDozing i = some .dozing) :
    s.takeWake i = (s.endDoze i).selectionRun := by
  unfold State.takeWake
  rw [h]

theorem takeWake_of_awake {s : State} {i : Nat} {x : StationState} (h : s.awakeOrDozing i = some x)
    (hx : x ≠ .dozing) : s.takeWake i = s := by
  unfold State.takeWake
  rw [h]
  cases x <;> first | rfl | exact absurd rfl hx

theorem takeWake_of_none {s : State} {i : Nat} (h : s.awakeOrDozing i = none) : s.takeWake i = s.ignoreRadio := by
  unfold State.takeWake
  rw [h]

/-- The doze of a station ends (R13): which state it takes, and which lists it leaves and joins. -/
theorem endDoze_eq (s : State) (i : Nat) : s.endDoze i = { s with
    stt := { s.stt with stations := s.stt.stations.modify i fun y =>
      { y with
        state := if (s.lanesOf i).allEmpty = true then .idle else .backlogged
        quantum := if s.rck.clocksRunning = true then 0 else y.quantum } }
    sel := { s.sel with
      poll := s.sel.poll.erase i
      active := if (s.lanesOf i).allEmpty = false ∧ i ∉ s.sel.active then s.sel.active ++ [i] else s.sel.active
      prompt := if s.lane i .prompt ≠ [] ∧ i ∉ s.sel.prompt then s.sel.prompt ++ [i] else s.sel.prompt } } := by
  have hlane : s.lane i .prompt = (s.lanesOf i).prompt := rfl
  unfold State.endDoze
  simp only [removePoll_keeps, hlane]
  by_cases he : (s.lanesOf i).allEmpty = true
  · have hp : (s.lanesOf i).prompt = [] := (Lanes.allEmpty_iff _).mp he .prompt
    simp [he, hp, State.removePoll, State.resumeAs, State.updSel, State.updStation, Station.resumed]
    rfl
  · by_cases hp : (s.lanesOf i).prompt = []
    · simp [he, hp, State.placeActive, State.resumeAs, State.removePoll, State.updSel, State.updStation,
        Station.resumed, joinTail]
      exact ⟨rfl, rfl⟩
    · simp [he, hp, State.placeActive, State.placePrompt, State.resumeAs, State.removePoll, State.updSel,
        State.updStation, Station.resumed, joinTail]
      exact ⟨rfl, rfl, rfl⟩

/-- Settles O42, by the state of the station the record names. -/
theorem wakeEndsADoze : Obligations.WakeEndsADoze := by
  unfold Obligations.WakeEndsADoze
  rintro s rest i x h rfl
  rw [exec_wake h]
  refine ⟨fun t h0 hi hd ht => ?_, fun h0 hi ha => ?_, fun hn => ?_⟩
  · rw [takeWake_of_dozing (awakeOrDozing_delivered rest h0 hi hd (by simp) (by simp)), endDoze_eq, ht]
    rfl
  · obtain ⟨x, hw, hx⟩ := exists_awake_delivered rest h0 hi ha
    rw [takeWake_of_awake hw hx]
  · rw [takeWake_of_none (awakeOrDozing_discarded rest hn)]
    rfl

/-! ## POLL -/

theorem exec_poll {s : State} {rest : List MacRecord} {i : Nat} (h : s.Delivers (.poll i) rest) :
    exec .poll s = .next (State.takePoll i { s with rli := s.delivered rest }) := by
  show execPoll s = _
  unfold execPoll
  rw [whenReleased_of_released _ h.1, deliver_of_delivers _ h rfl]

theorem takePoll_of_dozing {s : State} {i : Nat} (h : s.awakeOrDozing i = some .dozing) :
    s.takePoll i = s.grantPoll i := by
  unfold State.takePoll
  rw [h]

theorem takePoll_of_awake {s : State} {i : Nat} {x : StationState} (h : s.awakeOrDozing i = some x)
    (hx : x ≠ .dozing) : s.takePoll i = s := by
  unfold State.takePoll
  rw [h]
  cases x <;> first | rfl | exact absurd rfl hx

theorem takePoll_of_none {s : State} {i : Nat} (h : s.awakeOrDozing i = none) : s.takePoll i = s.ignoreRadio := by
  unfold State.takePoll
  rw [h]

/-- A note that joins its queue leaves the rest of STT alone (R6). -/
theorem formNote_stt_frame (s : State) (n : LinkNote) :
    { (s.formNote n).stt with linkNotes := s.stt.linkNotes } = s.stt := by
  simp [State.formNote, State.serveNotes, State.giveNotes]

/-- Settles O43, by the state of the station the record names and, for a dozing one, by its lanes. -/
theorem pollGrantsOneFrame : Obligations.PollGrantsOneFrame := by
  unfold Obligations.PollGrantsOneFrame
  rintro s rest i x h rfl
  rw [exec_poll h]
  have hlanes : State.lanesOf { s with rli := s.delivered rest } i = s.lanesOf i := rfl
  have hdozing : i ≠ 0 → i < 512 → (s.station i).state = .dozing →
      State.takePoll i { s with rli := s.delivered rest } = State.grantPoll { s with rli := s.delivered rest } i :=
    fun h0 hi hd => takePoll_of_dozing (awakeOrDozing_delivered rest h0 hi hd (by simp) (by simp))
  refine ⟨fun t h0 hi hd he ht => ?_, fun h0 hi hd he hq => ?_, fun h0 hi hd he hq => ?_, fun h0 hi ha => ?_,
    fun hn => ?_⟩
  · rw [hdozing h0 hi hd, State.grantPoll, if_neg (by simp [hlanes, he]), ht]
    rfl
  · rw [hdozing h0 hi hd, State.grantPoll, if_pos (by rw [hlanes, he]), State.formPollEmpty, if_pos hq]
  · have hpoll : State.grantPoll { s with rli := s.delivered rest } i
        = State.formNote { s with rli := s.delivered rest } (.pollEmpty i) := by
      rw [State.grantPoll, if_pos (by rw [hlanes, he]), State.formPollEmpty, if_neg hq]
    refine ⟨_, by rw [hdozing h0 hi hd, hpoll], formNote_radioLine _ _, formNote_radioServed _ _,
      (formNote_frame { s with rli := s.delivered rest } _).1, formNote_stt_frame _ _, (formNote_frame _ _).2, ?_⟩
    simp
  · obtain ⟨x, hw, hx⟩ := exists_awake_delivered rest h0 hi ha
    rw [takePoll_of_awake hw hx]
  · rw [takePoll_of_none (awakeOrDozing_discarded rest hn)]
    rfl

end Sys2Proof.Machine
end

section
/-!
TX_OUTCOME for an outstanding order (R125 to R128): the row is the conclusion of the order at the state the record is
delivered in, followed by the end of a drain or a selection run (R104, R165).
-/
namespace Sys2Proof.Machine

/-- Accounts are RCK's, COH's and SEL's, so a change of RLI alone leaves what their correction says. -/
theorem AccountsCorrected.of_delivered {s u : State} {r : Rli} {o : Order} {d : Int}
    (h : AccountsCorrected { s with rli := r } u o d) : AccountsCorrected s u o d :=
  ⟨h.cohort, h.cohorts, h.promptBudget, h.groupBudget, h.clocks⟩

/-- The split of an order's frames by an outcome, as the two halves are named. -/
theorem splitFrames_of_halves {o : Order} {x : Outcome} {marked undone : List Frame}
    (hm : marked = (if x.frameCount = o.frames.length
      then (o.frames.zipIdx.filter fun p => x.deliveredMap.getLsbD p.2).map Prod.fst else []))
    (hu : undone = (if x.frameCount = o.frames.length
      then (o.frames.zipIdx.filter fun p => !x.deliveredMap.getLsbD p.2).map Prod.fst else o.frames)) :
    splitFrames o x = (marked, undone) := by
  rw [splitFrames_eq, hm, hu]

section
variable {s : State} {rest : List MacRecord} {x : Outcome} {o : Order} {pre post : List Order}

/-- The row for an outstanding order: the conclusion, then the end of a drain or a selection run. -/
theorem exec_txOutcome_of_outstanding (h : s.Delivers (.txOutcome x) rest)
    (hos : s.ord.outstanding = pre ++ o :: post) (hox : o.id = x.id) (hid : ∀ p ∈ pre ++ post, p.id ≠ x.id)
    {u : State} (hu : u = State.acceptOutcome { s with rli := s.delivered rest } o x)
    (hl : u.ord.outstanding = pre ++ post) (hm : u.mod = s.mod) :
    exec .txOutcome s
      = .next (if s.mod.mode = .draining ∧ pre ++ post = [] then u.enterReady else u.selectionRun) := by
  have hfind : s.ord.outstanding.find? (fun o => o.id == x.id) = some o := by
    rw [hos]
    exact find_order_id hid hox
  have hrow : exec .txOutcome s = .next (State.takeOutcome x { s with rli := s.delivered rest }) := by
    show execTxOutcome s = _
    unfold execTxOutcome
    rw [whenReleased_of_released _ h.1, deliver_of_delivers _ h rfl]
  rw [hrow]
  unfold State.takeOutcome
  rw [hfind]
  dsimp only
  rw [← hu, conclusion_follows u _ hl, hm]

/-- The outstanding list behind the conclusion, read off the whole of ORD. -/
theorem outstanding_of_concluded {a b : Ord} {c : Bool} (h : { a with cancelPending := c } = b) :
    a.outstanding = b.outstanding := by
  rw [← h]

end

/-- Settles O35. -/
theorem acceptedOutcomeConcludesTheOrder : Obligations.AcceptedOutcomeConcludesTheOrder := by
  unfold Obligations.AcceptedOutcomeConcludesTheOrder
  rintro s rest x o pre post i st d marked undone back h hos hox hid rfl hi rfl hst hd hm hu hb
  have hq := splitFrames_of_halves hm hu
  obtain ⟨u, huv⟩ : ∃ u, u = State.acceptOutcome { s with rli := s.delivered rest } o x := ⟨_, rfl⟩
  obtain ⟨hord, hother, hmod, hacc, -⟩ :=
    acceptOutcome_common { s with rli := s.delivered rest } x o pre post d hos hox hid hi hd
  obtain ⟨hself, hfpl, hlane, hsel, hnotes, hrli, hcancel⟩ :=
    acceptOutcome_kept { s with rli := s.delivered rest } x o d marked undone back hi hst hd hq hb
  obtain ⟨-, hsel'⟩ := applyCorrection_accounts { s with rli := s.delivered rest } o d
  have hkeep := acceptOutcome_keeps { s with rli := s.delivered rest } o x
  rw [← huv] at hord hother hmod hacc hself hfpl hlane hsel hnotes hrli hcancel hkeep
  refine ⟨u, ?_, hrli, ?_, hself, hother, hfpl, ?_, fun j l hjl => ?_, hacc.of_delivered, ?_, hnotes, ?_⟩
  · exact exec_txOutcome_of_outstanding h hos hox hid huv (outstanding_of_concluded hord) hmod
  · rw [← hord, ← hcancel]
  · rw [hlane, if_pos rfl]
    rfl
  · rw [hlane, if_neg hjl]
    rfl
  · have hbudgets : u.sel.promptBudget
          = (State.applyCorrection { s with rli := s.delivered rest } o d).sel.promptBudget
        ∧ u.sel.groupBudget = (State.applyCorrection { s with rli := s.delivered rest } o d).sel.groupBudget := by
      rw [hsel]
      exact ⟨rfl, rfl⟩
    rw [hbudgets.1, hbudgets.2, hsel, hsel']
    rfl
  · exact ⟨by simp [hkeep], by simp [hkeep], by simp [hkeep], hmod, by simp [hkeep], by simp [hkeep]⟩

theorem station_lt_of_leaving {s : State} {i : Nat} (h : (s.station i).state = .leaving) : i < 512 := by
  by_contra c
  rw [station_of_le _ (by omega)] at h
  simp [Station.cleared] at h

/-- Settles O36: the conclusion of a LEAVING station's order, and what entering READY from DRAINING does. -/
theorem outcomeEndsALeavingStationOrADrain : Obligations.OutcomeEndsALeavingStationOrADrain := by
  unfold Obligations.OutcomeEndsALeavingStationOrADrain
  refine ⟨?_, fun v hv => ?_⟩
  · rintro s rest x o pre post i st d marked undone h hos hox hid rfl rfl hst hd hm hu
    have hq := splitFrames_of_halves hm hu
    have hi : o.station < 512 := station_lt_of_leaving hst
    obtain ⟨u, huv⟩ : ∃ u, u = State.acceptOutcome { s with rli := s.delivered rest } o x := ⟨_, rfl⟩
    obtain ⟨hord, hother, hmod, hacc, hrli⟩ :=
      acceptOutcome_common { s with rli := s.delivered rest } x o pre post d hos hox hid hi hd
    obtain ⟨hfpl, hlast, hmore, hsel⟩ :=
      acceptOutcome_gone { s with rli := s.delivered rest } x o d marked undone hst hd hq
    obtain ⟨-, hsel'⟩ := applyCorrection_accounts { s with rli := s.delivered rest } o d
    have hkeep := acceptOutcome_keeps { s with rli := s.delivered rest } o x
    rw [← huv] at hord hother hmod hacc hrli hfpl hlast hmore hsel hkeep
    refine ⟨u, ?_, hord, hfpl, hlast, hmore, hother, hacc.of_delivered, ?_, hrli, ?_⟩
    · exact exec_txOutcome_of_outstanding h hos hox hid huv (outstanding_of_concluded hord) hmod
    · rw [hsel]
      exact hsel'
    · exact ⟨by simp [hkeep], by simp [hkeep], by simp [hkeep], hmod, by simp [hkeep], by simp [hkeep]⟩
  · obtain ⟨hrck, hstn, hcoh, hsame, hmoved⟩ := enterReady_spec v
    refine ⟨enterReady_mod v hv, hrck, hstn, hcoh, hsame, hmoved, ?_⟩
    have hrun : v.enterReady.selectionRun = v.enterReady := by
      unfold State.selectionRun
      rw [if_neg]
      simp [State.selectionOpen, enterReady_mod v hv]
    simp [hrun]

end Sys2Proof.Machine
end

section
/-! ORDER_TIMEOUT (R131 to R134): the lost order, the LINK request behind it, and what follows. -/
namespace Sys2Proof.Machine

/-! ## LINK -/

theorem quietSet_link_of_raised {m : Mod} (h : m.causes.link = true) :
    m.quietSet { m.causes with link := true } = m := by
  have hsame : { m.causes with link := true } = m.causes := by rw [← h]
  rw [Mod.quietSet, if_pos hsame]

/-- Raising LINK never opens the selector: it brings no mode to RUNNING. -/
theorem quietSet_link_mode_ne_running {m : Mod} (h : m.mode = .quiet) :
    (m.quietSet { m.causes with link := true }).mode ≠ .running := by
  have hne : { m.causes with link := true } ≠ QuietCauses.empty := fun e => by
    have := congrArg QuietCauses.link e
    simp [QuietCauses.empty] at this
  unfold Mod.quietSet
  split
  · simp [h]
  · simp [h, hne]

theorem quietSet_draining_iff (m : Mod) (q : QuietCauses) : (m.quietSet q).mode = .draining ↔ m.mode = .draining := by
  unfold Mod.quietSet
  split
  · rfl
  · dsimp only
    split
    · simp_all
    · split <;> simp_all

/-- The LINK request behind a timeout (R133, R152). -/
theorem requestLink_eq (s : State) : s.requestLink = { s with
    mod := if s.mod.config.lossLimit ≤ s.ord.lossCount then s.mod.quietSet { s.mod.causes with link := true }
      else s.mod
    mgd := { s.mgd with
      linkRaises := if s.mod.config.lossLimit ≤ s.ord.lossCount ∧ s.mod.causes.link = false
        then min (s.mgd.linkRaises + 1) 4294967295 else s.mgd.linkRaises } } := by
  unfold State.requestLink
  by_cases hlim : s.mod.config.lossLimit ≤ s.ord.lossCount
  · unfold State.raiseLink
    cases hlink : s.mod.causes.link with
    | true =>
      have hmod := quietSet_link_of_raised hlink
      simp [hlim, hmod]
    | false =>
      have hmode : ¬ (s.mod.mode = .quiet ∧ (s.mod.quietSet { s.mod.causes with link := true }).mode = .running) :=
        fun e => quietSet_link_mode_ne_running e.1 e.2
      simp only [hlim, if_true, if_false, Bool.false_eq_true, and_self]
      rw [setCauses_eq, if_neg (by simpa using hmode)]
      rfl
  · simp [hlim]

/-! ## The order whose deadline has passed -/

theorem timeoutDue_none {s : State} (h : ∀ o ∈ s.ord.outstanding, passed s.rck.deviceTime o.deadline = false) :
    s.timeoutDue = none := by
  simp only [State.timeoutDue, List.find?_eq_none]
  intro o ho
  simp [h o ho]

/-- The oldest order whose deadline has passed stands behind those that still have time. -/
theorem timeoutDue_some {s : State} {pre post : List Order} {o : Order} (hos : s.ord.outstanding = pre ++ o :: post)
    (ho : passed s.rck.deviceTime o.deadline = true)
    (hpre : ∀ p ∈ pre, passed s.rck.deviceTime p.deadline = false) : s.timeoutDue = some o := by
  have hnone : pre.find? (fun o => passed s.rck.deviceTime o.deadline) = none := by
    simp only [List.find?_eq_none]
    intro p hp
    simp [hpre p hp]
  simp [State.timeoutDue, hos, List.find?_append, hnone, ho]

theorem exec_orderTimeout {s : State} (h : s.resetN = false) : exec .orderTimeout s = .next s.takeTimeout := by
  show execOrderTimeout s = _
  unfold execOrderTimeout
  rw [whenReleased_of_released _ h]

/-- The row for an order that times out: the loss and the LINK request, then the end of a drain or a selection run. -/
theorem exec_orderTimeout_of_due {s : State} {pre post : List Order} {o : Order} (h : s.resetN = false)
    (hc : s.sel.choice = none) (hdue : s.timeoutDue = some o)
    (hl : (s.loseOrder o).ord.outstanding = pre ++ post) :
    exec .orderTimeout s = .next (if s.mod.mode = .draining ∧ pre ++ post = []
      then (s.loseOrder o).requestLink.enterReady else (s.loseOrder o).requestLink.selectionRun) := by
  have hmode : (s.loseOrder o).requestLink.mod.mode = .draining ↔ s.mod.mode = .draining := by
    rw [requestLink_eq]
    dsimp only
    split
    · rw [quietSet_draining_iff]
      simp
    · simp
  have hleft : (s.loseOrder o).requestLink.ord.outstanding = pre ++ post := by
    rw [requestLink_eq]
    exact hl
  rw [exec_orderTimeout h]
  unfold State.takeTimeout
  rw [hdue]
  dsimp only
  rw [settle_of_no_choice hc, State.timeOutOrder, conclusion_follows _ _ hleft]
  simp only [hmode]

/-- Settles O45: the facts of the lost order, with MOD and MGD as the LINK request leaves them. -/
theorem timedOutOrderIsLost : Obligations.TimedOutOrderIsLost := by
  unfold Obligations.TimedOutOrderIsLost
  intro s h hc
  refine ⟨fun hno => ?_, ?_⟩
  · rw [exec_orderTimeout h, State.takeTimeout, timeoutDue_none hno]
  rintro o pre post i st back hos ho hpre hid rfl hi rfl hb
  obtain ⟨u, hu⟩ : ∃ u, u = s.loseOrder o := ⟨_, rfl⟩
  obtain ⟨hord, hother, hrli⟩ := loseOrder_common s o pre post hos hid hi
  have hkept := loseOrder_kept s o back hi
  have hgone := loseOrder_gone s o
  have hrow := exec_orderTimeout_of_due (pre := pre) (post := post) h hc (timeoutDue_some hos ho hpre)
    (outstanding_of_concluded hord)
  obtain ⟨hstt, hkeep⟩ : u.stt.radioIgnored = s.stt.radioIgnored ∧ u.rck = s.rck ∧ u.coh = s.coh ∧ u.cli = s.cli
      ∧ u.resetN = s.resetN ∧ u.pending = s.pending := by simp [hu]
  have hmod : u.mod = s.mod := by simp [hu]
  have hmgd : u.mgd = s.mgd := by simp [hu]
  have hloss : u.ord.lossCount = min (s.ord.lossCount + 1) 255 := by
    rw [← hu] at hord
    exact congrArg Ord.lossCount hord
  rw [← hu] at hord hother hrli hkept hgone hrow
  rw [requestLink_eq, hmod, hmgd, hloss] at hrow
  refine ⟨_, hrow, hord, rfl, rfl, hother, fun hst => ?_, fun hst => ?_, hrli, hstt, hkeep⟩
  · obtain ⟨hself, hfpl, hlane, hrest⟩ := hkept hst hb
    refine ⟨hself, hfpl, ?_, fun j l hjl => ?_, hrest⟩
    · exact (hlane o.station o.lane).trans (if_pos rfl)
    · exact (hlane j l).trans (if_neg hjl)
  · exact hgone hst

end Sys2Proof.Machine
end

section
/-!
FRAME_EXPIRY (R36, R37, R106): the entry leaves the expiry list and its lane, its frame is returned, and a lane left
empty takes its station off the lists (R3).
-/
namespace Sys2Proof.Machine

/-- FPL with the frame `f` expired: the expiry list is `es` and its lane is `q` (R36). -/
def State.withExpired (s : State) (e : ExpiryRef) (es : List ExpiryRef) (q : List Frame) (f : Frame) : State :=
  { s with fpl := { s.fpl with
      expiry := es
      lanes := s.fpl.lanes.modify e.station fun ls => ls.set e.lane q
      returnList := s.fpl.returnList ++ [⟨f, .expired⟩]
      framesExpired := min (s.fpl.framesExpired + 1) 4294967295 } }

theorem withExpired_lane (s : State) (e : ExpiryRef) (es : List ExpiryRef) (q : List Frame) (f : Frame) (j : Nat)
    (l : Lane) : (s.withExpired e es q f).lane j l
      = if (j, l) = (e.station, e.lane) ∧ j < 512 then q else s.lane j l :=
  setLane_lane s e.station j e.lane l q

theorem exec_frameExpiry {s : State} (h : s.resetN = false) : exec .frameExpiry s = .next s.takeExpiry := by
  show execFrameExpiry s = _
  unfold execFrameExpiry
  rw [whenReleased_of_released _ h]

/-- Nothing expires while the head of the expiry list still has time. -/
theorem takeExpiry_of_not_due {s : State}
    (h : ∀ e es, s.fpl.expiry = e :: es → passed s.rck.deviceTime e.deadline = false) : s.takeExpiry = s := by
  unfold State.takeExpiry State.expiryDue
  cases hq : s.fpl.expiry with
  | nil => rfl
  | cons e es => simp [h e es hq]

/-- A due head expires at once where a choice that waits names its lane, and where none waits. -/
theorem takeExpiry_of_due {s : State} {e : ExpiryRef} {es : List ExpiryRef}
    (hc : ∀ c, s.sel.choice = some c → e.station = c.station ∧ e.lane = c.lane) (hq : s.fpl.expiry = e :: es)
    (hp : passed s.rck.deviceTime e.deadline = true) : s.takeExpiry = s.expireFrame e := by
  have hdue : s.expiryDue = some e := by simp [State.expiryDue, hq, hp]
  have hchoice : s.expiryOfChoice e = true := by
    unfold State.expiryOfChoice
    cases hs : s.sel.choice with
    | none => rfl
    | some c => simp [hc c hs]
  unfold State.takeExpiry
  rw [hdue]
  exact if_pos hchoice

/-- The entry that a reference names leaves its lane; the lane left empty is R3's. -/
theorem expireFrame_eq {s : State} {e : ExpiryRef} {es : List ExpiryRef} {pre post : List Frame} {f : Frame}
    (hq : s.fpl.expiry = e :: es) (hl : s.lane e.station e.lane = pre ++ f :: post)
    (hf : f.sequence = e.sequence) (hpre : ∀ g ∈ pre, g.sequence ≠ e.sequence) :
    s.expireFrame e = if pre ++ post = [] then (s.withExpired e es (pre ++ post) f).laneEmpty e.station e.lane
      else s.withExpired e es (pre ++ post) f := by
  have hnone : pre.find? (fun g => g.sequence == e.sequence) = none := by
    simp only [List.find?_eq_none]
    intro g hg
    simp [hpre g hg]
  have hfind : (s.lane e.station e.lane).find? (fun g => g.sequence == e.sequence) = some f := by
    simp [hl, List.find?_append, hnone, hf]
  have herase : (s.lane e.station e.lane).eraseP (fun g => g.sequence == e.sequence) = pre ++ post := by
    rw [hl, List.eraseP_append_right _ (by simpa using hpre)]
    simp [hf]
  have hu : ((((s.updFpl fun p => { p with expiry := p.expiry.drop 1 }).setLane e.station e.lane
      (pre ++ post)).returnFrames [⟨f, .expired⟩]).updFpl
        fun p => { p with framesExpired := satAdd p.framesExpired 1 }) = s.withExpired e es (pre ++ post) f := by
    simp [State.withExpired, State.updFpl, State.setLane, State.returnFrames, hq, satAdd]
  unfold State.expireFrame
  simp only [hfind, herase, hu, List.isEmpty_iff]

/-- An emptied lane leaves the MAC's side alone unless it withdraws a grant whose note is not queued (R6, R14). -/
theorem laneEmpty_quiet (s : State) (i : Nat) (l : Lane)
    (h : i = 0 ∨ (s.station i).state ≠ .dozing ∨ (s.lanesOf i).allEmpty = false ∨ i ∉ s.sel.poll
      ∨ LinkNote.pollEmpty i ∈ s.stt.linkNotes) :
    (s.laneEmpty i l).stt.linkNotes = s.stt.linkNotes ∧ (s.laneEmpty i l).rli = s.rli
      ∧ (s.laneEmpty i l).ord = s.ord := by
  rcases h with h | h | h
  · exact laneEmpty_radio s i l (.inl h)
  · exact laneEmpty_radio s i l (.inr (.inl h))
  · exact laneEmpty_silent s i l h

/-- A grant withdrawn by an emptied lane puts a POLL_EMPTY in line for the MAC (R6, R14, R183). -/
theorem laneEmpty_pollEmpty {s : State} {i : Nat} (l : Lane) (h0 : i ≠ 0) (hs : (s.station i).state = .dozing)
    (ha : (s.lanesOf i).allEmpty = true) (hp : i ∈ s.sel.poll) (hn : LinkNote.pollEmpty i ∉ s.stt.linkNotes) :
    (s.laneEmpty i l).radioLine = s.radioLine ++ [.pollEmpty i] ∧ (s.laneEmpty i l).radioServed := by
  have hnote : LinkNote.pollEmpty i ∉ (s.removePoll i).stt.linkNotes := hn
  rw [laneEmpty_withdraws s i l h0 hs ha hp, State.formPollEmpty, if_neg hnote]
  exact ⟨formNote_radioLine _ _, formNote_radioServed _ _⟩

/-- Settles O44: the state with the frame expired, and what the emptied lane does behind it. -/
theorem expiredFrameIsReturned : Obligations.ExpiredFrameIsReturned := by
  unfold Obligations.ExpiredFrameIsReturned
  intro s h
  rw [exec_frameExpiry h]
  refine ⟨fun e es pre post f hc hq hp hl hf hpre => ?_, fun hno => by rw [takeExpiry_of_not_due hno]⟩
  have hi : e.station < 512 := by
    by_contra hge
    rw [lane_of_le _ _ (by omega)] at hl
    simp at hl
  have hrow := expireFrame_eq hq hl hf hpre
  obtain ⟨u, hu⟩ : ∃ u, u = s.withExpired e es (pre ++ post) f := ⟨_, rfl⟩
  have hlane : ∀ j l, u.lane j l = if (j, l) = (e.station, e.lane) ∧ j < 512 then pre ++ post else s.lane j l :=
    fun j l => by rw [hu]; exact withExpired_lane ..
  have hself : u.lane e.station e.lane = pre ++ post := by rw [hlane, if_pos ⟨rfl, hi⟩]
  have hother : ∀ j l, (j, l) ≠ (e.station, e.lane) → u.lane j l = s.lane j l :=
    fun j l hjl => by rw [hlane, if_neg fun c => hjl c.1]
  have hfpl : u.fpl = { s.fpl with
      expiry := es, lanes := u.fpl.lanes, returnList := s.fpl.returnList ++ [⟨f, .expired⟩]
      framesExpired := min (s.fpl.framesExpired + 1) 4294967295 } := by rw [hu]; rfl
  have hstation : ∀ j, u.station j = s.station j := fun j => by rw [hu]; rfl
  have hline : u.radioLine = s.radioLine := by rw [hu]; rfl
  obtain ⟨hstt, hrli, hord, hsel, hkeep⟩ : u.stt = s.stt ∧ u.rli = s.rli ∧ u.ord = s.ord ∧ u.sel = s.sel
      ∧ u.cli = s.cli ∧ u.rck = s.rck ∧ u.coh = s.coh ∧ u.mgd = s.mgd ∧ u.mod = s.mod
      ∧ u.resetN = s.resetN ∧ u.pending = s.pending := by simp [hu, State.withExpired]
  rw [takeExpiry_of_due hc hq hp, hrow, ← hu]
  by_cases hemp : pre ++ post = []
  · rw [if_pos hemp]
    have hlanesOf : ∀ j, (u.laneEmpty e.station e.lane).lanesOf j = u.lanesOf j := by simp
    have htstation := fun j => laneEmpty_station u e.station j e.lane hi
    have htsel := laneEmpty_sel u e.station e.lane
    have htfpl : (u.laneEmpty e.station e.lane).fpl = u.fpl := by simp
    refine ⟨_, rfl, ?_, ?_, fun j l hjl => ?_, fun j => ?_, ?_, fun hn => ?_, fun h0 hd hall hin hnote => ?_,
      by simp [hstt], by simpa using hkeep⟩
    · rw [htfpl]
      exact hfpl
    · rw [State.lane, hlanesOf]
      exact hself
    · rw [State.lane, hlanesOf]
      exact hother j l hjl
    · rw [htstation, hlanesOf, hstation, hstation]
      by_cases hj : j = e.station
      · subst hj
        simp
      · simp [hj]
    · rw [htsel, hlanesOf, hstation, hsel]
      simp [hemp]
    · rw [hlanesOf] at hn
      rw [← hstt, ← hrli, ← hord]
      refine laneEmpty_quiet u _ _ ?_
      rw [hstation, hsel, hstt]
      exact hn.resolve_left fun hne => hne hemp
    · rw [hlanesOf] at hall
      rw [← hline]
      exact laneEmpty_pollEmpty e.lane h0 (by rwa [hstation]) hall (by rwa [hsel]) (by rwa [hstt])
  · rw [if_neg hemp]
    have hne : (u.lanesOf e.station).allEmpty = false := by
      rw [Bool.eq_false_iff]
      intro hall
      exact hemp (hself ▸ (Lanes.allEmpty_iff _).mp hall e.lane)
    refine ⟨u, rfl, hfpl, hself, hother, fun j => ?_, ?_, fun _ => ⟨by rw [hstt], hrli, hord⟩,
      fun _ _ hall => absurd hall (by simp [hne]), by rw [hstt], hkeep⟩
    · rw [hstation, if_neg]
      rintro ⟨rfl, -, -, hall⟩
      simp [hne] at hall
    · rw [hsel]
      simp [hne, hemp]

end Sys2Proof.Machine
end

section
/-!
ORDER_BUILD of a choice whose lane holds frames (R61, R62, R78, R118 to R123): the take, the charges of the issue, the
order's record, and the slots given out behind it.
-/
namespace Sys2Proof.Machine

/-- The charges of an issue and its in_flight: the station, its cohort and the budget of the kind (R17, R61, R62). -/
def State.chargeIssue (s : State) (i : Nat) (co : Option Nat) (k : Kind) (est : Nat) : State :=
  (((s.chargeStation i est).chargeCohort co est).chargeSelector k est).raiseInFlight i

/-- ORD with the record of a new order behind the others (R119, R122). -/
def State.recordOrder (s : State) (o : Order) : State :=
  { s with ord := { s.ord with
      outstanding := s.ord.outstanding ++ [o]
      nextId := o.id + 1
      counters := { s.ord.counters with ordersIssued := min (s.ord.counters.ordersIssued + 1) 4294967295 } } }

/-- An issue is the take, the charges, the record and the slots. -/
theorem issueOrder_eq (s : State) (c : Choice) (fs : List Frame) :
    s.issueOrder c fs = (((s.takeFrames c.station c.lane fs.length).chargeIssue c.station
      (s.station c.station).cohort c.kind (estimate s.mod.config (s.orderRate c.station) fs)).recordOrder
        (s.orderRecord c fs (estimate s.mod.config (s.orderRate c.station) fs)
          (s.station c.station).cohort)).serveOrders := rfl

/-! ## The charges -/

theorem chargeSelector_sel (s : State) (k : Kind) (est : Nat) : (s.chargeSelector k est).sel = { s.sel with
    promptBudget := if k = .prompt then max (s.sel.promptBudget - est) (-65535) else s.sel.promptBudget
    groupBudget := if k = .group then max (s.sel.groupBudget - est) (-65535) else s.sel.groupBudget
    groupDue := if k = .group ∧ (s.chargeSelector k est).sel.groupBudget ≤ 0 then false else s.sel.groupDue } := by
  cases k with
  | group =>
    by_cases hb : chargeBudget s.sel.groupBudget est ≤ 0
    · simp [State.chargeSelector, State.setGroupBudget, hb, not_lt.mpr hb]
      rfl
    · simp [State.chargeSelector, State.setGroupBudget, hb, not_le.mp hb]
      rfl
  | prompt => simp [State.chargeSelector]; rfl
  | poll => simp [State.chargeSelector]
  | fair => simp [State.chargeSelector]
  | spill => simp [State.chargeSelector]

theorem chargeSelector_rck (s : State) (k : Kind) (est : Nat) : (s.chargeSelector k est).rck = { s.rck with
    promptUsed := if k = .prompt then min (s.rck.promptUsed + est) 4294967295 else s.rck.promptUsed } := by
  cases k <;> rfl

theorem chargeCohort_cohort (s : State) (co : Option Nat) (est : Nat) :
    (∀ k, co = some k → k < 32 → (s.chargeCohort co est).cohort k = { s.cohort k with
      budget := max ((s.cohort k).budget - est) (-65535)
      usedRound := min ((s.cohort k).usedRound + est) 4294967295 })
    ∧ ∀ k, co ≠ some k → (s.chargeCohort co est).cohort k = s.cohort k := by
  cases co with
  | none => exact ⟨fun k h => by simp at h, fun _ _ => rfl⟩
  | some n =>
    refine ⟨fun k h hk => ?_, fun k h => ?_⟩
    · obtain rfl : n = k := by simpa using h
      rw [State.chargeCohort, updCohort_cohort, if_pos ⟨rfl, hk⟩]
      rfl
    · rw [State.chargeCohort, updCohort_cohort, if_neg (fun e => h (by rw [e.1]))]

section
variable (s : State) (i : Nat) (co : Option Nat) (k : Kind) (est : Nat)

theorem chargeIssue_keeps : (s.chargeIssue i co k est).fpl = s.fpl ∧ (s.chargeIssue i co k est).rli = s.rli
    ∧ (s.chargeIssue i co k est).ord = s.ord ∧ (s.chargeIssue i co k est).stt.linkNotes = s.stt.linkNotes
    ∧ (s.chargeIssue i co k est).stt.radioIgnored = s.stt.radioIgnored ∧ (s.chargeIssue i co k est).cli = s.cli
    ∧ (s.chargeIssue i co k est).mgd = s.mgd ∧ (s.chargeIssue i co k est).mod = s.mod
    ∧ (s.chargeIssue i co k est).resetN = s.resetN ∧ (s.chargeIssue i co k est).pending = s.pending := by
  simp [State.chargeIssue, State.raiseInFlight]

theorem chargeIssue_station (hi : i < 512) : (s.chargeIssue i co k est).station i = { s.station i with
    balance := if i = 0 then (s.station i).balance
      else clampInt (-(s.mod.config.debtLimitUs : Int)) (s.station i).cap ((s.station i).balance - est)
    usedRound := min ((s.station i).usedRound + est) 4294967295
    inFlight := (s.station i).inFlight + 1 } := by
  unfold State.chargeIssue State.raiseInFlight
  rw [updStation_station_self _ _ hi]
  simp only [chargeSelector_keeps, chargeCohort_keeps]
  rw [State.chargeStation, updStation_station_self _ _ hi]
  rfl

theorem chargeIssue_station_of_ne {j : Nat} (hj : j ≠ i) : (s.chargeIssue i co k est).station j = s.station j := by
  unfold State.chargeIssue State.raiseInFlight
  rw [updStation_station_of_ne _ _ hj]
  simp only [chargeSelector_keeps, chargeCohort_keeps]
  rw [State.chargeStation, updStation_station_of_ne _ _ hj]

theorem chargeIssue_cohort :
    (∀ n, co = some n → n < 32 → (s.chargeIssue i co k est).cohort n = { s.cohort n with
      budget := max ((s.cohort n).budget - est) (-65535)
      usedRound := min ((s.cohort n).usedRound + est) 4294967295 })
    ∧ ∀ n, co ≠ some n → (s.chargeIssue i co k est).cohort n = s.cohort n := by
  have hc := chargeCohort_cohort (s.chargeStation i est) co est
  simpa [State.chargeIssue, State.raiseInFlight] using hc

theorem chargeIssue_sel : (s.chargeIssue i co k est).sel = { s.sel with
    promptBudget := if k = .prompt then max (s.sel.promptBudget - est) (-65535) else s.sel.promptBudget
    groupBudget := if k = .group then max (s.sel.groupBudget - est) (-65535) else s.sel.groupBudget
    groupDue := if k = .group ∧ (s.chargeIssue i co k est).sel.groupBudget ≤ 0 then false else s.sel.groupDue } := by
  have hs := chargeSelector_sel ((s.chargeStation i est).chargeCohort co est) k est
  simp only [chargeCohort_keeps, chargeStation_keeps] at hs
  exact hs

theorem chargeIssue_rck : (s.chargeIssue i co k est).rck = { s.rck with
    promptUsed := if k = .prompt then min (s.rck.promptUsed + est) 4294967295 else s.rck.promptUsed } := by
  simp [State.chargeIssue, State.raiseInFlight, chargeSelector_rck]

end

/-! ## The build -/

/-- A choice is built, and the next selection run follows, where the lane gives an order frames. -/
theorem exec_orderBuild_of_frames {s : State} {c : Choice} {fs : List Frame} (h : s.resetN = false)
    (hc : s.sel.choice = some c)
    (hfs : aggregate s.mod.config (s.orderRate c.station) (frameLimit s.mod.config c.kind) (s.lane c.station c.lane)
      = fs) (hne : fs ≠ []) :
    exec .orderBuild s
      = .next ((s.updSel fun e => { e with choice := none }).issueOrder c fs).selectionRun := by
  have hb : (s.updSel fun e => { e with choice := none }).buildChoice c
      = (s.updSel fun e => { e with choice := none }).issueOrder c fs := by
    unfold State.buildChoice
    split
    · rename_i hnil
      exact absurd (hfs.symm.trans hnil) hne
    · exact congrArg _ hfs
  show execOrderBuild s = _
  unfold execOrderBuild
  rw [whenReleased_of_released _ h, State.buildOrder, hc]
  dsimp only
  rw [hb]

/-- The books behind an issue are as its charges leave them: the record and the slots touch ORD and the MAC's side. -/
theorem serveOrders_recordOrder_keeps (a : State) (o : Order) :
    (∀ j, (a.recordOrder o).serveOrders.station j = a.station j)
      ∧ (∀ j, (a.recordOrder o).serveOrders.lanesOf j = a.lanesOf j)
      ∧ (∀ j l, (a.recordOrder o).serveOrders.lane j l = a.lane j l)
      ∧ (∀ n, (a.recordOrder o).serveOrders.cohort n = a.cohort n)
      ∧ (a.recordOrder o).serveOrders.fpl = a.fpl ∧ (a.recordOrder o).serveOrders.sel = a.sel
      ∧ (a.recordOrder o).serveOrders.rck = a.rck
      ∧ (a.recordOrder o).serveOrders.stt.radioIgnored = a.stt.radioIgnored
      ∧ (a.recordOrder o).serveOrders.cli = a.cli ∧ (a.recordOrder o).serveOrders.mgd = a.mgd
      ∧ (a.recordOrder o).serveOrders.mod = a.mod ∧ (a.recordOrder o).serveOrders.resetN = a.resetN
      ∧ (a.recordOrder o).serveOrders.pending = a.pending := by
  simp only [serveOrders_keeps]
  exact ⟨fun _ => rfl, fun _ => rfl, fun _ _ => rfl, fun _ => rfl, rfl, rfl, rfl, rfl, rfl, rfl, rfl, rfl, rfl⟩

/-- ORD behind the record and the slots, apart from who has been placed (R119, R122). -/
theorem serveOrders_recordOrder_ord (a : State) (o : Order) :
    (a.recordOrder o).serveOrders.ord.nextId = o.id + 1
      ∧ (a.recordOrder o).serveOrders.ord.quarantine = a.ord.quarantine
      ∧ (a.recordOrder o).serveOrders.ord.lossCount = a.ord.lossCount
      ∧ (a.recordOrder o).serveOrders.ord.counters
        = { a.ord.counters with ordersIssued := min (a.ord.counters.ordersIssued + 1) 4294967295 } := by
  simp only [serveOrders_keeps]
  exact ⟨rfl, rfl, rfl, rfl⟩

/-- The orders and the radio outbound queue behind the record and the slots (R123, R183). -/
theorem serveOrders_recordOrder_slots {a : State} {o : Order} (ho : o.sent = .waiting) :
    (a.recordOrder o).serveOrders.ord.outstanding.map (fun p => { p with sent := .waiting })
        = (a.ord.outstanding ++ [o]).map (fun p => { p with sent := .waiting })
      ∧ (a.radioFree = 0 → (a.recordOrder o).serveOrders.ord.outstanding = a.ord.outstanding ++ [o]
          ∧ (a.recordOrder o).serveOrders.rli = a.rli
          ∧ (a.recordOrder o).serveOrders.ord.cancelPending = a.ord.cancelPending
          ∧ (a.recordOrder o).serveOrders.stt.linkNotes = a.stt.linkNotes)
      ∧ (0 < a.radioFree → a.ord.cancelPending = false → a.stt.linkNotes = [] →
          (∀ p ∈ a.ord.outstanding, p.sent = .placed) →
          (a.recordOrder o).serveOrders.ord.outstanding = a.ord.outstanding ++ [{ o with sent := .placed }]
          ∧ (a.recordOrder o).serveOrders.rli = { a.rli with
              outbound := a.rli.outbound ++ [.txOrder o.toTxOrder] }
          ∧ (a.recordOrder o).serveOrders.ord.cancelPending = false
          ∧ (a.recordOrder o).serveOrders.stt.linkNotes = []) := by
  obtain ⟨hmarks, hfull, hfree⟩ := serveOrders_spec (a.recordOrder o)
  refine ⟨hmarks, fun h => ?_, fun h hc hn hp => ?_⟩
  · obtain ⟨hord, hrli, hnotes⟩ := hfull h
    exact ⟨by rw [hord]; rfl, hrli, by rw [hord]; rfl, hnotes⟩
  · obtain ⟨hord, hrli, hnotes⟩ := hfree a.ord.outstanding o h hc hn rfl hp ho
    exact ⟨by rw [hord], hrli, by rw [hord]; exact hc, hnotes⟩

/-- The state behind the take of a choice: the choice is gone and the frames have left their lane (R31, R105). -/
def State.takeChoice (s : State) (c : Choice) (n : Nat) : State :=
  (s.updSel fun e => { e with choice := none }).takeFrames c.station c.lane n

section
variable {s : State} {c : Choice} {taken left : List Frame}

theorem takeChoice_moves (hl : s.lane c.station c.lane = taken ++ left) (hne : taken ≠ [])
    (hp : c.station ∉ s.sel.poll) :
    (∀ j k, (s.takeChoice c taken.length).lane j k
        = if (j, k) = (c.station, c.lane) then left else s.lane j k)
      ∧ (∀ j, (s.takeChoice c taken.length).station j
        = if j = c.station ∧ c.station ≠ 0 ∧ (s.station c.station).state = .backlogged
            ∧ ((s.takeChoice c taken.length).lanesOf c.station).allEmpty = true
          then { s.station j with state := .idle } else s.station j)
      ∧ (s.takeChoice c taken.length).fpl = { s.fpl with
          lanes := (s.takeChoice c taken.length).fpl.lanes
          expiry := s.fpl.expiry.filter fun e => !taken.any fun f => f.sequence == e.sequence }
      ∧ (s.takeChoice c taken.length).sel = { s.sel with
          choice := none
          active := if c.station ≠ 0 ∧ (s.station c.station).state = .backlogged
              ∧ ((s.takeChoice c taken.length).lanesOf c.station).allEmpty = true
            then s.sel.active.erase c.station else s.sel.active
          prompt := if c.station ≠ 0 ∧ (s.station c.station).state = .backlogged ∧ c.lane = .prompt ∧ left = []
            then s.sel.prompt.erase c.station else s.sel.prompt
          groupDue := if c.station = 0 ∧ left = [] then false else s.sel.groupDue } := by
  obtain ⟨hlane, hstation, hfpl, -⟩ :=
    takeFrames_spec (s.updSel fun e => { e with choice := none }) c.station c.lane taken left hl hne hp
  exact ⟨hlane, hstation, hfpl,
    takeFrames_sel (s.updSel fun e => { e with choice := none }) c.station c.lane taken left hl hne hp⟩

theorem takeChoice_keeps (hl : s.lane c.station c.lane = taken ++ left) (hne : taken ≠ [])
    (hp : c.station ∉ s.sel.poll) :
    (s.takeChoice c taken.length).stt.linkNotes = s.stt.linkNotes ∧ (s.takeChoice c taken.length).rli = s.rli
      ∧ (s.takeChoice c taken.length).ord = s.ord
      ∧ (s.takeChoice c taken.length).stt.radioIgnored = s.stt.radioIgnored
      ∧ (s.takeChoice c taken.length).rck = s.rck
      ∧ (∀ n, (s.takeChoice c taken.length).cohort n = s.cohort n)
      ∧ (s.takeChoice c taken.length).cli = s.cli ∧ (s.takeChoice c taken.length).mgd = s.mgd
      ∧ (s.takeChoice c taken.length).mod = s.mod ∧ (s.takeChoice c taken.length).resetN = s.resetN
      ∧ (s.takeChoice c taken.length).pending = s.pending := by
  obtain ⟨-, -, -, hnotes, hrli, hord⟩ :=
    takeFrames_spec (s.updSel fun e => { e with choice := none }) c.station c.lane taken left hl hne hp
  refine ⟨hnotes, hrli, hord, ?_⟩
  simp [State.takeChoice]

end

/-- The row's aggregate, rate and estimate as the model's functions. -/
theorem issue_operands {s : State} {c : Choice} {taken : List Frame} {rate est : Nat}
    (hrate : rate = (if c.station = 0 then s.mod.config.groupRate else (s.station c.station).rate))
    (htaken : taken = aggregate s.mod.config rate (if c.kind = .poll then 1 else s.mod.config.orderMaxFrames)
      (s.lane c.station c.lane))
    (hest : est = min (s.mod.config.orderOverheadUs
      + (taken.map fun f => s.mod.config.subframeUs + (f.length * 16 + rate - 1) / rate).sum) 65535) :
    aggregate s.mod.config (s.orderRate c.station) (frameLimit s.mod.config c.kind) (s.lane c.station c.lane) = taken
      ∧ estimate s.mod.config (s.orderRate c.station) taken = est := by
  subst hrate
  exact ⟨htaken.symm, hest.symm⟩

/-- Settles O51: each stage of the issue by what is said of it, in the order of R122. -/
theorem orderBuildIssuesAnOrder : Obligations.OrderBuildIssuesAnOrder := by
  unfold Obligations.OrderBuildIssuesAnOrder
  rintro s c taken left rate est id st o h hc hpoll rfl hrate htaken hlane hne hest hid hquar hfirst ho
  obtain ⟨hagg, hestimate⟩ := issue_operands hrate htaken hest
  have hi : c.station < 512 := lt_of_lane_ne_nil (s := s) (l := c.lane) (by simp [hlane, hne])
  have hrow := exec_orderBuild_of_frames h hc hagg hne
  have hid' : s.ord.allocate = id := allocate_eq s.ord id hid hquar hfirst
  have hrecord : s.orderRecord c taken est (s.station c.station).cohort = o := by
    rw [ho, State.orderRecord, hid']
    rfl
  have hissue : (s.updSel fun e => { e with choice := none }).issueOrder c taken
      = (((s.takeChoice c taken.length).chargeIssue c.station (s.station c.station).cohort c.kind est).recordOrder
        o).serveOrders := by
    rw [← hrecord, ← hestimate]
    rfl
  rw [hissue] at hrow
  clear hissue
  obtain ⟨tlane, tstation, tfpl, tsel⟩ := takeChoice_moves hlane hne hpoll
  obtain ⟨tnotes, trli, tord, tignored, trck, tcohort, tcli, tmgd, tmod, treset, tpending⟩ :=
    takeChoice_keeps hlane hne hpoll
  generalize s.takeChoice c taken.length = t at *
  have astation := chargeIssue_station t c.station (s.station c.station).cohort c.kind est hi
  have aother := fun j => chargeIssue_station_of_ne t c.station (s.station c.station).cohort c.kind est (j := j)
  obtain ⟨acohort, acohorts⟩ := chargeIssue_cohort t c.station (s.station c.station).cohort c.kind est
  have asel := chargeIssue_sel t c.station (s.station c.station).cohort c.kind est
  have arck := chargeIssue_rck t c.station (s.station c.station).cohort c.kind est
  obtain ⟨afpl, arli, aord, anotes, aignored, acli, amgd, amod, areset, apending⟩ :=
    chargeIssue_keeps t c.station (s.station c.station).cohort c.kind est
  generalize t.chargeIssue c.station (s.station c.station).cohort c.kind est = a at *
  have alanesOf : ∀ j, a.lanesOf j = t.lanesOf j := lanesOf_congr (by rw [afpl])
  have alane : ∀ j k, a.lane j k = t.lane j k := fun j k => by rw [State.lane, alanesOf, State.lane]
  have afree : a.radioFree = s.radioFree := by rw [State.radioFree, arli, trli, State.radioFree]
  obtain ⟨umarks, ufull, uplaced⟩ := serveOrders_recordOrder_slots (a := a) (o := o) (by rw [ho])
  obtain ⟨unext, uquar, uloss, ucount⟩ := serveOrders_recordOrder_ord a o
  obtain ⟨ustation, ulanesOf, ulane, ucohort, ufpl, usel, urck, uignored, ucli, umgd, umod, ureset, upending⟩ :=
    serveOrders_recordOrder_keeps a o
  generalize (a.recordOrder o).serveOrders = u at *
  simp only [aord, tord, arli, trli, anotes, tnotes, afree] at umarks ufull uplaced unext uquar uloss ucount
  have uself : u.lanesOf c.station = t.lanesOf c.station := by rw [ulanesOf, alanesOf]
  refine ⟨u, hrow, umarks, ufull, fun h1 h2 h3 h4 => ?_, ?_, uquar, uloss, ucount, ?_, ?_, fun j hj => ?_, ?_,
    fun j l hjl => ?_, ?_, fun k hk hk' => ?_, fun k hk => ?_, ?_, ?_, ?_⟩
  · obtain ⟨p1, p2, p3, p4⟩ := uplaced h1 h2 h3 h4
    refine ⟨p1, ?_, p3, p4⟩
    rw [p2, ho]
    rfl
  · rw [unext, ho]
  · rw [ustation, astation, tstation, tmod]
    split <;> rfl
  · rw [ustation, astation, tstation, uself]
    simp
    split <;> rfl
  · rw [ustation, aother j hj, tstation, if_neg (fun e => hj e.1)]
  · rw [ulane, alane, tlane, if_pos rfl]
  · rw [ulane, alane, tlane, if_neg hjl]
  · rw [ufpl, afpl]
    exact tfpl
  · rw [ucohort, acohort k hk hk', tcohort]
  · rw [ucohort, acohorts k hk, tcohort]
  · have hdue : (if (c.station = 0 ∧ left = []) ∨ (c.kind = .group ∧ a.sel.groupBudget ≤ 0) then false
          else s.sel.groupDue)
        = if c.kind = .group ∧ a.sel.groupBudget ≤ 0 then false else t.sel.groupDue := by
      have htdue := congrArg Sel.groupDue tsel
      by_cases hk : c.kind = .group ∧ a.sel.groupBudget ≤ 0
      · rw [if_pos (.inr hk), if_pos hk]
      · rw [if_neg hk, htdue]
        simp only [hk, or_false]
    rw [uself, usel, hdue]
    rw [tsel] at asel ⊢
    exact asel
  · rw [urck, arck, trck]
  · rw [uignored, ucli, umgd, umod, ureset, upending, aignored, acli, amgd, amod, areset, apending, tignored, tcli, tmgd,
      tmod, treset, tpending]
    simp

end Sys2Proof.Machine
end

section
/-!
The builds of a settlement (R105, R106): they put orders behind those that stand, so the events that a settlement comes
before find the same head commands, records and deadlines behind it; and with that ChoicesAreFollowedThroughFirst.
-/
namespace Sys2Proof.Machine

/-! ## Orders apart from their sent field -/

/-- The record of an order apart from whether its TX_ORDER has been placed (R118, R123). -/
def Order.unsent (o : Order) : Order :=
  { o with sent := .waiting }

/-- What a list of orders shows of them apart from their sent fields. -/
theorem map_eq_of_unsent {β : Type} (g : Order → β) (hg : ∀ o : Order, g o.unsent = g o) {as bs : List Order}
    (h : as.map Order.unsent = bs.map Order.unsent) : as.map g = bs.map g := by
  have hu : ∀ os : List Order, os.map g = (os.map Order.unsent).map g := fun os => by
    rw [List.map_map]
    exact List.map_congr_left fun o _ => (hg o).symm
  rw [hu as, h, ← hu bs]

theorem giveOrders_unsent (s : State) (n : Nat) :
    (s.giveOrders n).ord.outstanding.map Order.unsent = s.ord.outstanding.map Order.unsent :=
  placeHeld_strip _ _

theorem serveOrders_unsent (s : State) :
    s.serveOrders.ord.outstanding.map Order.unsent = s.ord.outstanding.map Order.unsent :=
  (serveOrders_spec s).1

/-- An issue puts its order behind those that stand (R118, R122). -/
theorem issueOrder_unsent (s : State) (c : Choice) (fs : List Frame) :
    ∃ est cohort, (s.issueOrder c fs).ord.outstanding.map Order.unsent
      = s.ord.outstanding.map Order.unsent ++ [s.orderRecord c fs est cohort] := by
  refine ⟨estimate s.mod.config (s.orderRate c.station) fs, (s.station c.station).cohort, ?_⟩
  rw [issueOrder_eq, serveOrders_unsent, State.recordOrder, List.map_append]
  simp only [chargeIssue_keeps, takeFrames_keeps]
  rfl

theorem buildOrder_unsent (s : State) : ∃ new : List Order, s.buildOrder.ord.outstanding.map Order.unsent
    = s.ord.outstanding.map Order.unsent ++ new := by
  unfold State.buildOrder
  split
  · exact ⟨[], by simp⟩
  · rename_i c hc
    unfold State.buildChoice
    split
    · exact ⟨[], by simp⟩
    · obtain ⟨est, cohort, h⟩ := issueOrder_unsent (s.updSel fun e => { e with choice := none }) c
        (aggregate s.mod.config (s.orderRate c.station) (frameLimit s.mod.config c.kind) (s.lane c.station c.lane))
      exact ⟨_, by simp only [selectionRun_keeps]; exact h⟩

theorem buildOrders_unsent (n : Nat) (s : State) : ∃ new : List Order,
    (State.buildOrders n s).ord.outstanding.map Order.unsent = s.ord.outstanding.map Order.unsent ++ new := by
  induction n generalizing s with
  | zero => exact ⟨[], by simp [State.buildOrders]⟩
  | succ n ih =>
    unfold State.buildOrders
    split
    · obtain ⟨new, h⟩ := buildOrder_unsent s
      obtain ⟨more, h'⟩ := ih s.buildOrder
      exact ⟨new ++ more, by rw [h', h, List.append_assoc]⟩
    · exact ⟨[], by simp⟩

/-- A settlement puts its orders behind those that stand. -/
theorem settle_unsent (s : State) : ∃ new : List Order, s.settle.ord.outstanding.map Order.unsent
    = s.ord.outstanding.map Order.unsent ++ new :=
  buildOrders_unsent 8 s

/-! ## What a settlement leaves for the event behind it -/

@[simp] theorem settle_settle (s : State) : s.settle.settle = s.settle :=
  settle_of_no_choice (settle_choice s)

theorem settle_dispatchable (s : State) (wanted : Byte → Bool) :
    s.settle.dispatchable wanted = s.dispatchable wanted := by
  simp [State.dispatchable]

/-- A command at the head with a slot for its reply is dispatched behind the settlement (R106, R177). -/
theorem dispatch_settle {s : State} {c : Command} (d : State → List Byte → State × Reply) {r : HostRecord}
    (h : s.dispatchable (names c) = some r) : s.dispatch c d = s.settle.dispatch c d := by
  unfold State.dispatch
  rw [settle_dispatchable, h, settle_settle]

theorem rejectUnknown_settle {s : State} {r : HostRecord} (h : s.dispatchable namesNone = some r) :
    s.rejectUnknown = s.settle.rejectUnknown := by
  unfold State.rejectUnknown
  rw [settle_dispatchable, h, settle_settle]

/-- The row that dispatches the head command is as behind the settlement. -/
theorem exec_dispatchEvent_settle {s : State} {r : HostRecord} {rest : List HostRecord} (hr : s.resetN = false)
    (hi : s.cli.inbound = r :: rest) (ho : s.cli.outbound.length < 16) :
    exec (dispatchEvent r.typ) s = exec (dispatchEvent r.typ) s.settle := by
  have hrs : s.settle.resetN = false := by simpa using hr
  cases hn : commandOf r.typ with
  | none =>
    have hd := rejectUnknown_settle (dispatchable_of_cons hi ho (wanted := namesNone) (by simp [namesNone, hn]))
    have he : dispatchEvent r.typ = .unknownType := by simp [dispatchEvent, hn]
    rw [he]
    show execUnknownType s = execUnknownType s.settle
    unfold execUnknownType
    rw [whenReleased_of_released _ hr, whenReleased_of_released _ hrs, hd]
  | some c =>
    have hd := dispatch_settle c.decision (dispatchable_of_cons hi ho (wanted := names c) (by simp [names, hn]))
    rw [dispatchEvent_of_command hn, exec_command c hr, exec_command c hrs, hd]
    simp only [settle_keeps]

/-- A record at the head that its owner takes is delivered behind the settlement (R106, R186). -/
theorem deliver_settle (s : State) {r : MacRecord} {rest : List MacRecord} {take : MacRecord → Option (State → State)}
    (hi : s.rli.inbound = r :: rest) (ht : take r ≠ none) : s.deliver take = s.settle.deliver take := by
  have his : s.settle.rli.inbound = r :: rest := by simpa using hi
  obtain ⟨f, hf⟩ := Option.ne_none_iff_exists'.mp ht
  unfold State.deliver
  rw [hi, his]
  simp only [hf, settle_settle]

/-- The row that delivers the head record is as behind the settlement. -/
theorem exec_deliveryEvent_settle {s : State} {r : MacRecord} {rest : List MacRecord} (hr : s.resetN = false)
    (hi : s.rli.inbound = r :: rest) : exec (deliveryEvent r) s = exec (deliveryEvent r) s.settle := by
  have hrs : s.settle.resetN = false := by simpa using hr
  have key : ∀ take : MacRecord → Option (State → State), take r ≠ none →
      s.whenReleased (fun s => s.deliver take) = s.settle.whenReleased fun s => s.deliver take := by
    intro take ht
    rw [whenReleased_of_released _ hr, whenReleased_of_released _ hrs, deliver_settle s hi ht]
  cases r with
  | txOutcome x => exact key _ (Option.some_ne_none _)
  | mediumReport pm => exact key _ (Option.some_ne_none _)
  | mediumAlert c => exact key _ (Option.some_ne_none _)
  | mediumClear => exact key _ (Option.some_ne_none _)
  | doze i => exact key _ (Option.some_ne_none _)
  | wake i => exact key _ (Option.some_ne_none _)
  | poll i => exact key _ (Option.some_ne_none _)

/-- The order whose deadline has passed is the same behind a settlement, placed or not (R131). -/
theorem settle_timeoutDue {s : State} {o : Order} (h : s.timeoutDue = some o) :
    ∃ sent, s.settle.timeoutDue = some { o with sent := sent } := by
  have hfind : ∀ (now : Time) (os : List Order), (os.map Order.unsent).find? (fun o => passed now o.deadline)
      = (os.find? fun o => passed now o.deadline).map Order.unsent := fun now os => List.find?_map ..
  obtain ⟨new, hnew⟩ := settle_unsent s
  have hdue : s.settle.timeoutDue.map Order.unsent = some o.unsent := by
    unfold State.timeoutDue at h ⊢
    rw [← hfind, hnew, List.find?_append, hfind]
    simp [h]
  obtain ⟨p, hp, hpo⟩ := Option.map_eq_some_iff.mp hdue
  refine ⟨p.sent, hp.trans (congrArg some ?_)⟩
  obtain ⟨_, _, _, _, _, _, _, _, _, _, _, _⟩ := p
  simp_all [Order.unsent]

/-- A timeout does not read whether its TX_ORDER had been placed (R131). -/
theorem timeOutOrder_sent (s : State) (o : Order) (x : Sent) : s.timeOutOrder { o with sent := x } = s.timeOutOrder o :=
  rfl

/-- An order times out behind the settlement (R106, R131). -/
theorem takeTimeout_settle {s : State} (h : s.timeoutDue ≠ none) : s.takeTimeout = s.settle.takeTimeout := by
  obtain ⟨o, ho⟩ := Option.ne_none_iff_exists'.mp h
  obtain ⟨x, hx⟩ := settle_timeoutDue ho
  unfold State.takeTimeout
  rw [ho, hx]
  simp only [settle_settle, timeOutOrder_sent]

theorem takeRoundBoundary_settle {s : State} (h : s.roundDue = true) :
    s.takeRoundBoundary = s.settle.takeRoundBoundary := by
  have hs : s.settle.roundDue = true := by simpa [State.roundDue] using h
  unfold State.takeRoundBoundary
  rw [if_pos h, if_pos hs, settle_settle]

theorem takePromptBoundary_settle {s : State} (h : s.promptDue = true) :
    s.takePromptBoundary = s.settle.takePromptBoundary := by
  have hs : s.settle.promptDue = true := by simpa [State.promptDue] using h
  unfold State.takePromptBoundary
  rw [if_pos h, if_pos hs, settle_settle]

/-- With no choice in wait every expiry is of the moment (R36). -/
theorem takeExpiry_of_no_choice {s : State} (h : s.sel.choice = none) : s.takeExpiry = s.expireDue := by
  unfold State.takeExpiry State.expireDue
  split
  · rfl
  · exact if_pos (by simp [State.expiryOfChoice, h])

/-- An expiry in another lane than the chosen one is taken behind the settlement (R37, R106). -/
theorem takeExpiry_settle {s : State} {r : ExpiryRef} (hd : s.expiryDue = some r) (hc : s.expiryOfChoice r = false) :
    s.takeExpiry = s.settle.takeExpiry := by
  rw [takeExpiry_of_no_choice (settle_choice s)]
  unfold State.takeExpiry
  rw [hd]
  exact if_neg (by simp [hc])

/-! ## An expiry of the chosen lane -/

/-- The part with `x` for its waiting choice. -/
def State.withWaiting (s : State) (x : Option Choice) : State :=
  { s with sel := { s.sel with choice := x } }

theorem ite_withWaiting (p : Prop) [Decidable p] (s t : State) (x : Option Choice) :
    (if p then s.withWaiting x else t.withWaiting x) = (if p then s else t).withWaiting x :=
  (apply_ite (fun u : State => u.withWaiting x) p s t).symm

theorem giveCancel_withWaiting (s : State) (x : Option Choice) :
    (s.withWaiting x).giveCancel = s.giveCancel.withWaiting x := by
  unfold State.giveCancel
  refine Eq.trans ?_ (ite_withWaiting _ _ _ x)
  rfl

theorem serveNotes_withWaiting (s : State) (x : Option Choice) :
    (s.withWaiting x).serveNotes = s.serveNotes.withWaiting x := by
  unfold State.serveNotes
  rw [giveCancel_withWaiting]
  rfl

theorem formNote_withWaiting (s : State) (n : LinkNote) (x : Option Choice) :
    (s.withWaiting x).formNote n = (s.formNote n).withWaiting x :=
  serveNotes_withWaiting (s.updStt fun t => { t with linkNotes := t.linkNotes ++ [n] }) x

theorem formPollEmpty_withWaiting (s : State) (i : Nat) (x : Option Choice) :
    (s.withWaiting x).formPollEmpty i = (s.formPollEmpty i).withWaiting x := by
  unfold State.formPollEmpty
  rw [formNote_withWaiting]
  refine Eq.trans ?_ (ite_withWaiting _ _ _ x)
  rfl

/-- R3 does not read the waiting choice. -/
theorem laneEmpty_withWaiting (s : State) (i : Nat) (l : Lane) (x : Option Choice) :
    (s.withWaiting x).laneEmpty i l = (s.laneEmpty i l).withWaiting x := by
  have hst : (s.withWaiting x).station i = s.station i := rfl
  have hp : ((s.withWaiting x).removePoll i).formPollEmpty i = ((s.removePoll i).formPollEmpty i).withWaiting x :=
    formPollEmpty_withWaiting (s.removePoll i) i x
  unfold State.laneEmpty
  rw [hst, hp]
  split
  · rfl
  · cases (s.station i).state with
    | backlogged =>
      dsimp only
      refine Eq.trans ?_ (ite_withWaiting _ _ _ x)
      by_cases hl : l = .prompt
      · rw [if_pos hl, if_pos hl]
        rfl
      · rw [if_neg hl, if_neg hl]
        rfl
    | dozing =>
      dsimp only
      refine Eq.trans ?_ (ite_withWaiting _ _ _ x)
      rfl
    | idle => rfl
    | leaving => rfl
    | vacant => rfl

/-- The expiry of the list's head does not read the waiting choice (R36, R37). -/
theorem expireFrame_withWaiting {s : State} {e : ExpiryRef} {es : List ExpiryRef} (x : Option Choice)
    (hq : s.fpl.expiry = e :: es) : (s.withWaiting x).expireFrame e = (s.expireFrame e).withWaiting x := by
  cases hf : (s.lane e.station e.lane).find? fun f => f.sequence == e.sequence with
  | none =>
    have hx : ((s.withWaiting x).lane e.station e.lane).find? (fun f => f.sequence == e.sequence) = none := hf
    unfold State.expireFrame
    simp only [hf, hx]
    rfl
  | some f =>
    obtain ⟨hfe, pre, post, hl, hpre⟩ := List.find?_eq_some_iff_append.mp hf
    have hfe' : f.sequence = e.sequence := by simpa using hfe
    have hpre' : ∀ g ∈ pre, g.sequence ≠ e.sequence := fun g hg => by simpa using hpre g hg
    rw [expireFrame_eq (s := s.withWaiting x) hq hl hfe' hpre', expireFrame_eq hq hl hfe' hpre']
    refine Eq.trans ?_ (ite_withWaiting _ _ _ x)
    rw [← laneEmpty_withWaiting]
    rfl

theorem promptHeld_of_listInv {s : State} (h : s.ListInv) : s.PromptHeld :=
  ⟨h.promptOnce, fun i hi => (h.prompt i).mp hi⟩

/-- The window is at most 4 (R159). -/
theorem window_le {c : Configuration} (h : c.inRanges = true) : c.window ≤ 4 := by
  simp only [Configuration.inRanges, inRange, Bool.and_eq_true, decide_eq_true_eq] at h
  omega

/-- Settles O10, event by event: each finds behind the settlement what it found before it. -/
theorem choicesAreFollowedThroughFirst : Obligations.ChoicesAreFollowedThroughFirst := by
  unfold Obligations.ChoicesAreFollowedThroughFirst
  intro s
  refine ⟨settle_choice s, settle_of_no_choice, fun u hm _ hl hr hc hu => ?_,
    fun r rest hr hi ho => exec_dispatchEvent_settle hr hi ho, fun r rest hr hi => exec_deliveryEvent_settle hr hi,
    fun hr hd => ?_, fun hr hd => ?_, fun hr hd => ?_, fun c e es hr hc he hp => ?_⟩
  · have hb : Host.Outcome.next s.buildOrder = .next u := (whenReleased_of_released _ hr).symm.trans hu
    injection hb with hb
    rw [← hb]
    have hw := window_le hm.config
    exact settle_buildOrder hc (promptHeld_of_listInv hl) (by omega)
  all_goals have hrs : s.settle.resetN = false := by simpa using hr
  · rw [exec_orderTimeout hr, exec_orderTimeout hrs, takeTimeout_settle hd]
  · show execRoundBoundary s = execRoundBoundary s.settle
    unfold execRoundBoundary
    rw [whenReleased_of_released _ hr, whenReleased_of_released _ hrs, takeRoundBoundary_settle hd]
  · show execPromptBoundary s = execPromptBoundary s.settle
    unfold execPromptBoundary
    rw [whenReleased_of_released _ hr, whenReleased_of_released _ hrs, takePromptBoundary_settle hd]
  · refine ⟨fun hne => ?_, fun h1 h2 => ⟨s.expireFrame e, ?_, ?_, ?_⟩⟩
    · have hd : s.expiryDue = some e := by simp [State.expiryDue, he, hp]
      have hn : s.expiryOfChoice e = false := by
        rcases hne with hne | hne <;> simp [State.expiryOfChoice, hc, hne]
      rw [exec_frameExpiry hr, exec_frameExpiry hrs, takeExpiry_settle hd hn]
    · rw [exec_frameExpiry hr, takeExpiry_of_due (fun c' hc' => ?_) he hp]
      obtain rfl : c = c' := Option.some.inj (hc.symm.trans hc')
      exact ⟨h1, h2⟩
    · simpa using hc
    · have hx := exec_frameExpiry (s := s.withWaiting none) hr
      rw [takeExpiry_of_due (s := s.withWaiting none) (fun _ h => nomatch h) he hp, expireFrame_withWaiting none he]
        at hx
      exact hx

end Sys2Proof.Machine
end

section
/-! ENQUEUE as a whole (R27, R29), and TOKEN_RETURN (R42). -/
namespace Sys2Proof.Machine

/-! ## ENQUEUE -/

/-- The part with `c` for its Control Link. -/
def State.withCli (s : State) (c : Cli) : State :=
  { s with cli := c }

theorem ite_withCli (p : Prop) [Decidable p] (s t : State) (c : Cli) :
    (if p then s.withCli c else t.withCli c) = (if p then s else t).withCli c :=
  (apply_ite (fun u : State => u.withCli c) p s t).symm

/-- R3 does not read the Control Link. -/
theorem laneNonempty_withCli (s : State) (i : Nat) (l : Lane) (c : Cli) :
    (s.withCli c).laneNonempty i l = (s.laneNonempty i l).withCli c := by
  have hst : (s.withCli c).station i = s.station i := rfl
  unfold State.laneNonempty
  rw [hst]
  by_cases h0 : i = 0
  · rw [if_pos h0, if_pos h0]
    refine Eq.trans ?_ (ite_withCli _ _ _ c)
    rfl
  · rw [if_neg h0, if_neg h0]
    cases (s.station i).state with
    | idle =>
      dsimp only
      refine Eq.trans ?_ (ite_withCli _ _ _ c)
      rfl
    | backlogged =>
      dsimp only
      refine Eq.trans ?_ (ite_withCli _ _ _ c)
      rfl
    | dozing => rfl
    | leaving => rfl
    | vacant => rfl

theorem acceptFrame_withCli (s : State) (f : Frame) (c : Cli) :
    (s.withCli c).acceptFrame f = (s.acceptFrame f).withCli c := by
  unfold State.acceptFrame
  dsimp only
  refine Eq.trans ?_ (ite_withCli _ _ _ c)
  rw [← laneNonempty_withCli]
  rfl

/-- A frame record's decision does not read the Control Link (R27, R28). -/
theorem offerFrame_withCli (s : State) (f : FrameFields) (c : Cli) :
    (s.withCli c).offerFrame f = ((s.offerFrame f).1.withCli c, (s.offerFrame f).2) := by
  have hr : (s.withCli c).frameRefusal f = s.frameRefusal f := rfl
  unfold State.offerFrame
  rw [hr]
  cases s.frameRefusal f with
  | some k => rfl
  | none =>
    dsimp only
    rw [← acceptFrame_withCli]
    rfl

/-- What the frame records after the first are decided on (R27). -/
theorem offerFrames_cons (s : State) (f : FrameFields) (fs : List FrameFields) : s.offerFrames (f :: fs)
    = (((s.offerFrame f).1.offerFrames fs).1, (s.offerFrame f).2 :: ((s.offerFrame f).1.offerFrames fs).2) := rfl

theorem offerFrames_withCli (fs : List FrameFields) (s : State) (c : Cli) :
    (s.withCli c).offerFrames fs = ((s.offerFrames fs).1.withCli c, (s.offerFrames fs).2) := by
  induction fs generalizing s with
  | nil => rfl
  | cons f fs ih => rw [offerFrames_cons, offerFrames_cons, offerFrame_withCli, ih]

theorem inRange_iff (lo hi x : Nat) : inRange lo hi x = true ↔ lo ≤ x ∧ x ≤ hi := by
  simp [inRange]

theorem decideEnqueue_badRange {s : State} {b : List Byte} (hm : s.mod.mode ≠ .halted)
    (hn : field b 0 1 = 0 ∨ 16 < field b 0 1) : decideEnqueue s b = refuse s .badRange := by
  have hr : ¬ inRange 1 Config.enqueueFrames (enqueueCount b) = true := fun h => by
    have : 1 ≤ field b 0 1 ∧ field b 0 1 ≤ 16 := (inRange_iff 1 16 _).mp h
    omega
  unfold decideEnqueue
  rw [if_neg hm, if_pos (by simpa using hr)]

/-- The decision of an ENQUEUE whose count is in range: every frame record in order, then a run if one was accepted. -/
theorem decideEnqueue_inRange {s : State} {b : List Byte} (hm : s.mod.mode ≠ .halted) (h1 : 1 ≤ field b 0 1)
    (h2 : field b 0 1 ≤ 16) : decideEnqueue s b
      = (if ReplyCode.ok ∈ (s.offerFrames (parseEnqueue b)).2 then (s.offerFrames (parseEnqueue b)).1.selectionRun
          else (s.offerFrames (parseEnqueue b)).1, .enqueue (s.offerFrames (parseEnqueue b)).2) := by
  have hr : inRange 1 Config.enqueueFrames (enqueueCount b) = true := (inRange_iff 1 16 _).mpr ⟨h1, h2⟩
  unfold decideEnqueue
  rw [if_neg hm, if_neg (by simpa using hr)]
  simp

/-- Settles O24: the count, then the frame records, whose decisions do not read the link they came by. -/
theorem enqueueDecidesEveryFrame : Obligations.EnqueueDecidesEveryFrame := by
  unfold Obligations.EnqueueDecidesEveryFrame
  intro s r rest n h hm hn
  refine ⟨fun hbad => ?_, fun h1 h2 => ⟨(s.offerFrames (parseEnqueue r.body)).1,
    (s.offerFrames (parseEnqueue r.body)).2, ?_, rfl, ?_⟩, ?_, fun u => rfl, fun u f fs => rfl⟩
  · exact exec_unchanged h (by simp) (decideEnqueue_badRange (s := s.taken rest) hm (hn ▸ hbad))
  · have hd := decideEnqueue_inRange (s := s.taken rest) (b := r.body) hm (hn ▸ h1) (hn ▸ h2)
    have ht : (s.taken rest).offerFrames (parseEnqueue r.body) = _ :=
      offerFrames_withCli (parseEnqueue r.body) s (s.taken rest).cli
    rw [ht] at hd
    have hk := offerFrames_keeps (parseEnqueue r.body) s
    generalize s.offerFrames (parseEnqueue r.body) = p at *
    have hc : (p.1.withCli (s.taken rest).cli).selectionRun = p.1.selectionRun.withCli (s.taken rest).cli :=
      selectionRun_cli p.1 _
    dsimp only at hd
    rw [hc, ite_withCli] at hd
    obtain ⟨u, hu⟩ : ∃ u, u = if ReplyCode.ok ∈ p.2 then p.1.selectionRun else p.1 := ⟨_, rfl⟩
    obtain ⟨hrck, hmod⟩ : u.rck = s.rck ∧ u.mod = s.mod := by
      rw [hu]
      split <;> simp [hk]
    rw [← hu] at hd ⊢
    exact exec_answered (u := u.withCli (s.taken rest).cli) h (by simp) hd rfl (congrArg Rck.deviceTime hrck)
      (congrArg Mod.attnOperation hmod)
  · rw [offerFrames_length, hn]
    simp [parseEnqueue, enqueueCount]
  · rw [hn]
    rfl

/-! ## TOKEN_RETURN -/

theorem exec_tokenReturn {s : State} (h : s.resetN = false) : exec .tokenReturn s = .next s.formTokenReturn := by
  show execTokenReturn s = _
  unfold execTokenReturn
  rw [whenReleased_of_released _ h]

/-- A notice waits for an entry to return and for two free slots (R42, R178). -/
theorem tokenReturnDue_iff (s : State) :
    s.tokenReturnDue = true ↔ s.fpl.returnList ≠ [] ∧ s.cli.outbound.length + 2 ≤ 16 := by
  have hf : 2 ≤ s.outFree ↔ s.cli.outbound.length + 2 ≤ 16 := by
    simp only [State.outFree, Config.controlOutbound]
    omega
  simp [State.tokenReturnDue, hf]

/-- Settles O29: the notice where it is due, and nothing otherwise. -/
theorem tokenReturnFreesEntries : Obligations.TokenReturnFreesEntries := by
  unfold Obligations.TokenReturnFreesEntries
  intro s hr
  rw [exec_tokenReturn hr]
  unfold State.formTokenReturn
  refine ⟨fun hl ho => ?_, fun hno => ?_⟩
  · rw [if_pos ((tokenReturnDue_iff s).mpr ⟨hl, ho⟩)]
    simp [pushOut_eq, State.updFpl, State.noticed, satAdd]
  · rw [if_neg]
    rw [tokenReturnDue_iff]
    rintro ⟨hl, ho⟩
    rcases hno with hno | hno
    · exact hl hno
    · omega

end Sys2Proof.Machine
end

section
/-!
The 4,096 frame entries (R23): what each shared operation moves between the free list, the lanes, the orders and the
return list.
-/
namespace Sys2Proof.Machine

/-! ## Counts -/

/-- The entries that stand with FPL: FREE, QUEUED and RETURNING (R23). -/
def State.standing (s : State) : Nat :=
  s.fpl.freeEntries + s.queuedTotal + s.fpl.returnList.length

theorem poolTotal_eq (s : State) : s.poolTotal = s.standing + s.inFlightTotal := by
  unfold State.poolTotal State.standing
  omega

/-- What the count of the standing entries reads. -/
theorem standing_congr {s t : State} (hfree : t.fpl.freeEntries = s.fpl.freeEntries)
    (hlanes : t.fpl.lanes = s.fpl.lanes) (hreturn : t.fpl.returnList.length = s.fpl.returnList.length) : t.standing = s.standing := by
  simp only [State.standing, State.queuedTotal, hfree, hlanes, hreturn]

theorem standing_of_fpl {s t : State} (h : t.fpl = s.fpl) : t.standing = s.standing := by
  simp only [State.standing, State.queuedTotal, h]

/-- A change of one entry of a list changes a sum over the list by that entry's change. -/
theorem sum_map_modify {α : Type} (g : α → Nat) (f : α → α) (d : α) (xs : List α) {i : Nat} (hi : i < xs.length) :
    ((xs.modify i f).map g).sum + g (xs.getD i d) = (xs.map g).sum + g (f (xs.getD i d)) := by
  induction xs generalizing i with
  | nil => simp at hi
  | cons x xs ih =>
    cases i with
    | zero =>
      simp
      omega
    | succ i =>
      have := ih (i := i) (by simpa using hi)
      simp at this ⊢
      omega

theorem Lanes.total_set (ls : Lanes) (l : Lane) (q : List Frame) :
    (ls.set l q).total + (ls.get l).length = ls.total + q.length := by
  cases l <;> simp only [Lanes.total, Lanes.set, Lanes.get] <;> omega

/-- A change of one lane (R25). -/
theorem setLane_standing (s : State) {i : Nat} (l : Lane) (q : List Frame) (hi : i < 512) :
    (s.setLane i l q).standing + (s.lane i l).length = s.standing + q.length := by
  have hrow : i < s.fpl.lanes.rows.length := by
    rw [s.fpl.lanes.size]
    exact hi
  have hsum := sum_map_modify Lanes.total (fun ls => ls.set l q) .empty s.fpl.lanes.rows hrow
  have hset := Lanes.total_set (s.lanesOf i) l q
  have hq : (s.setLane i l q).queuedTotal = ((s.fpl.lanes.rows.modify i fun ls => ls.set l q).map Lanes.total).sum := rfl
  have hl : s.fpl.lanes.rows.getD i .empty = s.lanesOf i := rfl
  rw [hl] at hsum
  simp only [State.standing, setLane_freeEntries, setLane_returnList, hq, State.lane]
  unfold State.queuedTotal
  omega

/-! ## The shared operations of FPL -/

theorem returnFrames_standing (s : State) (rs : List Returning) :
    (s.returnFrames rs).standing = s.standing + rs.length := by
  simp only [State.standing, State.queuedTotal, State.returnFrames, updFpl_fpl, List.length_append]
  omega

@[simp] theorem withResult_length (fs : List Frame) (x : FrameResult) : (withResult fs x).length = fs.length := by
  simp [withResult]

@[simp] theorem laneEmpty_standing (s : State) (i : Nat) (l : Lane) : (s.laneEmpty i l).standing = s.standing :=
  standing_of_fpl (by simp)

@[simp] theorem laneNonempty_standing (s : State) (i : Nat) (l : Lane) : (s.laneNonempty i l).standing = s.standing :=
  standing_of_fpl (by simp)

/-- A returned lane moves its entries from QUEUED to RETURNING (R38, R40, R46). -/
theorem returnLane_standing (s : State) (i : Nat) (x : FrameResult) (l : Lane) :
    (s.returnLane i x l).standing = s.standing := by
  unfold State.returnLane
  split
  · rfl
  · rename_i hne
    have hset := setLane_standing s l [] (lt_of_lane_ne_nil hne)
    rw [laneEmpty_standing, returnFrames_standing, withResult_length]
    exact hset

theorem returnLanes_standing (s : State) (i : Nat) (x : FrameResult) (ls : List Lane) :
    (s.returnLanes i x ls).standing = s.standing := by
  induction ls generalizing s with
  | nil => rfl
  | cons l ls ih => exact (ih (s.returnLane i x l)).trans (returnLane_standing s i x l)

theorem flushAll_standing (s : State) : s.flushAll.standing = s.standing := by
  unfold State.flushAll
  generalize List.range Config.stationCount = is
  induction is generalizing s with
  | nil => rfl
  | cons i is ih => exact (ih (s.returnLanes i .flushed allLanes)).trans (returnLanes_standing s i _ _)

/-- An accepted frame moves an entry from FREE to QUEUED (R28). -/
theorem acceptFrame_standing (s : State) (f : Frame) (hi : f.station < 512) (hfree : s.fpl.freeEntries ≠ 0) :
    (s.acceptFrame f).standing = s.standing := by
  have hset := setLane_standing s f.lane (s.lane f.station f.lane ++ [f]) hi
  have hlist : ∀ (u : State) (q : Fpl → List ExpiryRef) (a b : Fpl → Nat), (u.updFpl fun p => { p with
      freeEntries := p.freeEntries - 1, expiry := q p, nextSequence := a p, framesAccepted := b p }).standing
        + u.fpl.freeEntries = u.standing + (u.fpl.freeEntries - 1) := by
    intro u q a b
    simp only [State.standing, State.queuedTotal, updFpl_fpl]
    omega
  have hmove := hlist (s.setLane f.station f.lane (s.lane f.station f.lane ++ [f])) (fun p => joinExpiry p.expiry f)
    (fun p => p.nextSequence + 1) fun p => satAdd p.framesAccepted 1
  rw [setLane_freeEntries] at hmove
  rw [List.length_append, List.length_singleton] at hset
  unfold State.acceptFrame
  dsimp only
  split
  · rw [laneNonempty_standing]
    omega
  · omega

/-- A frame that passes the checks names a station there is, and a FREE entry is left for it (R27). -/
theorem frameRefusal_none {s : State} {f : FrameFields} (h : s.frameRefusal f = none) :
    f.station < 512 ∧ s.fpl.freeEntries ≠ 0 := by
  obtain ⟨l, hl⟩ : ∃ l, l = if f.station = 0 then Lane.bulk else (laneOf f.lane).getD .bulk := ⟨_, rfl⟩
  rw [frameRefusal_checks s f l hl] at h
  split_ifs at h with h1 h2 h3 h4 h5
  exact ⟨by omega, h5⟩

theorem offerFrame_standing (s : State) (f : FrameFields) : (s.offerFrame f).1.standing = s.standing := by
  unfold State.offerFrame
  split
  · rfl
  · rename_i h
    obtain ⟨hi, hfree⟩ := frameRefusal_none h
    exact acceptFrame_standing s _ hi hfree

theorem offerFrames_standing (fs : List FrameFields) (s : State) : (s.offerFrames fs).1.standing = s.standing := by
  induction fs generalizing s with
  | nil => rfl
  | cons f fs ih =>
    rw [offerFrames_cons, ih]
    exact offerFrame_standing s f

/-- A take moves the head of a lane from FPL to an order (R31). -/
theorem takeFrames_standing (s : State) {i : Nat} (l : Lane) (n : Nat) (hi : i < 512) :
    (s.takeFrames i l n).standing + min n (s.lane i l).length = s.standing := by
  have hset := setLane_standing s l ((s.lane i l).drop n) hi
  have hu : ((s.setLane i l ((s.lane i l).drop n)).updFpl fun p =>
      { p with expiry := leaveExpiry p.expiry ((s.lane i l).take n) }).standing
        = (s.setLane i l ((s.lane i l).drop n)).standing := rfl
  rw [List.length_drop] at hset
  unfold State.takeFrames
  dsimp only
  split
  · rw [laneEmpty_standing, hu]
    omega
  · rw [hu]
    omega

/-- A requeue moves an order's frames back to their lane (R32). -/
theorem requeueFrames_standing (s : State) {i : Nat} (l : Lane) (fs : List Frame) (hi : i < 512) :
    (s.requeueFrames i l fs).standing = s.standing + fs.length := by
  have hset := setLane_standing s l (fs.map Frame.requeued ++ s.lane i l) hi
  rw [List.length_append, List.length_map] at hset
  unfold State.requeueFrames
  split
  · rename_i h
    simp [List.isEmpty_iff.mp h]
  · have hu : ((s.setLane i l (fs.map Frame.requeued ++ s.lane i l)).updFpl fun p =>
        { p with
          expiry := (fs.map Frame.requeued).foldl joinExpiry p.expiry
          framesRequeued := satAdd p.framesRequeued fs.length }).standing
        = (s.setLane i l (fs.map Frame.requeued ++ s.lane i l)).standing := rfl
    dsimp only
    split
    · rw [laneNonempty_standing, hu]
      omega
    · rw [hu]
      omega

/-- The undelivered frames of an order are requeued or returned, every one of them (R126, R131). -/
theorem concludeFrames_standing (s : State) (o : Order) (x : FrameResult) (fs : List Frame) (hi : o.station < 512) :
    (s.concludeFrames o x fs).standing = s.standing + fs.length := by
  have hparts : ∀ fate : Frame → Option FrameResult, (fs.filter fun f => (fate f).isNone).length
      + (fs.filterMap fun f => (fate f).map fun r => (⟨f, r⟩ : Returning)).length = fs.length := by
    intro fate
    induction fs with
    | nil => rfl
    | cons f fs ih =>
      cases hf : fate f <;> simp [hf] <;> omega
  unfold State.concludeFrames
  dsimp only
  rw [returnFrames_standing, requeueFrames_standing _ _ _ hi, Nat.add_assoc, hparts]

/-- An expiry moves an entry from QUEUED to RETURNING (R36). -/
theorem expireFrame_standing (s : State) (r : ExpiryRef) : (s.expireFrame r).standing = s.standing := by
  unfold State.expireFrame
  dsimp only
  split
  · rfl
  · rename_i f hf
    have hmem := List.mem_of_find?_eq_some hf
    have hlen := List.length_eraseP_of_mem hmem (List.find?_some hf)
    have hpos := List.length_pos_of_mem hmem
    have hset := setLane_standing (s.updFpl fun p => { p with expiry := p.expiry.drop 1 }) r.lane
      ((s.lane r.station r.lane).eraseP fun f => f.sequence == r.sequence)
      (lt_of_lane_ne_nil (List.ne_nil_of_mem hmem))
    have hret := returnFrames_standing ((s.updFpl fun p => { p with expiry := p.expiry.drop 1 }).setLane r.station r.lane
      ((s.lane r.station r.lane).eraseP fun f => f.sequence == r.sequence)) [⟨f, .expired⟩]
    have hlane : (s.updFpl fun p => { p with expiry := p.expiry.drop 1 }).lane r.station r.lane
      = s.lane r.station r.lane := rfl
    have hu : ∀ u : State, (u.updFpl fun p => { p with framesExpired := satAdd p.framesExpired 1 }).standing
      = u.standing := fun _ => rfl
    have hs : (s.updFpl fun p => { p with expiry := p.expiry.drop 1 }).standing = s.standing := rfl
    rw [hlane, hs] at hset
    rw [List.length_singleton] at hret
    split
    · rw [laneEmpty_standing, hu]
      omega
    · rw [hu]
      omega

/-- A notice moves entries from RETURNING to FREE (R42). -/
theorem formTokenReturn_standing (s : State) : s.formTokenReturn.standing = s.standing := by
  unfold State.formTokenReturn
  split
  · simp only [State.standing, State.queuedTotal, updFpl_fpl, pushOut_keeps, List.length_take, List.length_drop,
      Config.tokensPerReturn]
    omega
  · rfl

end Sys2Proof.Machine
end

section
/-!
StepKeepsThePool: the orders' frames beside the entries that stand with FPL, through builds, conclusions and
cancellations, and so through every step (R23, R31, R118 to R138).
-/
namespace Sys2Proof.Machine

/-! ## Ids (R119) -/

/-- Allocation finds a free id while fewer than 256 are on the two lists. -/
theorem allocate_free (d : Ord) (h : d.outstanding.length + d.quarantine.length < 256) :
    d.allocate ∉ d.outstanding.map Order.id := by
  have hfree : ∀ id : OrderId, d.idTaken id = false → id ∉ d.outstanding.map Order.id := by
    intro id hid hm
    obtain ⟨o, ho, rfl⟩ := List.mem_map.mp hm
    simp only [Ord.idTaken, Bool.or_eq_false_iff, List.any_eq_false] at hid
    exact hid.1 o ho (by simp)
  unfold Ord.allocate
  cases hf : ((List.range 256).map fun k => d.nextId + BitVec.ofNat 8 k).find? fun id => !d.idTaken id with
  | some id => exact hfree id (by simpa using List.find?_some hf)
  | none =>
    exfalso
    have hsub : ((List.range 256).map fun k => d.nextId + BitVec.ofNat 8 k)
        ⊆ d.outstanding.map Order.id ++ d.quarantine := by
      intro id hid
      have htaken := List.find?_eq_none.mp hf id hid
      simp only [Bool.not_eq_true', Bool.not_eq_false, Ord.idTaken, Bool.or_eq_true, List.any_eq_true,
        decide_eq_true_eq] at htaken
      rcases htaken with ⟨o, ho, he⟩ | hq
      · exact List.mem_append_left _ (List.mem_map.mpr ⟨o, ho, by simpa using he⟩)
      · exact List.mem_append_right _ hq
    have hnodup : ((List.range 256).map fun k => d.nextId + BitVec.ofNat 8 k).Nodup := by
      refine List.Nodup.map_on (fun a ha b hb e => ?_) List.nodup_range
      rw [List.mem_range] at ha hb
      have he : BitVec.ofNat 8 a = BitVec.ofNat 8 b := by simpa using e
      have := congrArg BitVec.toNat he
      simp only [BitVec.toNat_ofNat] at this
      omega
    have hlen := (List.subperm_of_subset hnodup hsub).length_le
    simp at hlen
    omega

/-! ## The pool and its orders -/

/-- How many entries are IN_FLIGHT, of the orders apart from their sent fields. -/
theorem inFlightTotal_congr {s t : State}
    (h : t.ord.outstanding.map Order.unsent = s.ord.outstanding.map Order.unsent) :
    t.inFlightTotal = s.inFlightTotal :=
  congrArg List.sum (map_eq_of_unsent (fun o => o.frames.length) (fun _ => rfl) h)

/-- What PoolInv reads: how many entries stand, and the orders apart from their sent fields. -/
theorem State.PoolInv.congr {s t : State} (h : s.PoolInv) (hs : t.standing = s.standing)
    (ho : t.ord.outstanding.map Order.unsent = s.ord.outstanding.map Order.unsent) : t.PoolInv where
  total := by
    rw [poolTotal_eq, hs, inFlightTotal_congr ho, ← poolTotal_eq]
    exact h.total
  stations := by
    have hst := map_eq_of_unsent Order.station (fun _ => rfl) ho
    intro o hm
    have hmem : o.station ∈ s.ord.outstanding.map Order.station := hst ▸ List.mem_map_of_mem hm
    obtain ⟨p, hp, he⟩ := List.mem_map.mp hmem
    exact he ▸ h.stations p hp

/-- An operation that leaves FPL and the orders as they are. -/
theorem State.PoolInv.of_same {s t : State} (h : s.PoolInv) (hf : t.fpl = s.fpl)
    (ho : t.ord.outstanding = s.ord.outstanding) : t.PoolInv :=
  h.congr (standing_of_fpl hf) (by rw [ho])

theorem State.PoolInv.selectionRun {s : State} (h : s.PoolInv) : s.selectionRun.PoolInv :=
  h.of_same (by simp) (by simp)

theorem removeOrder_inFlightTotal {s : State} {o : Order} (hn : (s.ord.outstanding.map Order.id).Nodup)
    (ho : o ∈ s.ord.outstanding) :
    (s.removeOrder o.id).inFlightTotal + o.frames.length = s.inFlightTotal := by
  unfold State.inFlightTotal State.removeOrder
  simp only [updOrd_ord]
  generalize s.ord.outstanding = os at *
  obtain ⟨pre, post, rfl⟩ := List.append_of_mem ho
  rw [List.map_append, List.map_cons, List.nodup_middle, List.nodup_cons, ← List.map_append] at hn
  have hne : ∀ p ∈ pre ++ post, p.id ≠ o.id := fun p hp e => hn.1 (List.mem_map.mpr ⟨p, hp, e⟩)
  rw [filter_order_id hne]
  simp
  omega

/-- A concluded order: its frames have come back to stand with FPL, and its record has gone (R125, R131, R137). -/
theorem State.PoolInv.concluded {s t : State} {o : Order} (h : s.PoolInv)
    (hn : (s.ord.outstanding.map Order.id).Nodup) (ho : o ∈ s.ord.outstanding)
    (hs : t.standing = s.standing + o.frames.length)
    (hl : t.ord.outstanding = (s.removeOrder o.id).ord.outstanding) : t.PoolInv where
  total := by
    have hrem := removeOrder_inFlightTotal hn ho
    have hfly : t.inFlightTotal = (s.removeOrder o.id).inFlightTotal := inFlightTotal_congr (by rw [hl])
    have htotal := h.total
    rw [poolTotal_eq] at htotal ⊢
    omega
  stations p hp := by
    rw [hl] at hp
    exact h.stations p (List.mem_of_mem_filter hp)

/-- An outcome's delivered and undelivered frames are the order's (R125, R127). -/
theorem splitFrames_length (o : Order) (x : Outcome) :
    (splitFrames o x).1.length + (splitFrames o x).2.length = o.frames.length := by
  unfold splitFrames
  split
  · simp only [List.length_map]
    rw [← List.length_eq_length_filter_add]
    simp
  · simp

theorem State.PoolInv.acceptOutcome {s : State} {o : Order} (h : s.PoolInv)
    (hn : (s.ord.outstanding.map Order.id).Nodup) (ho : o ∈ s.ord.outstanding) (x : Outcome) :
    (s.acceptOutcome o x).PoolInv := by
  refine h.concluded hn ho ?_ (by simp [State.acceptOutcome, State.removeOrder])
  have hfpl : ∀ u : State, (((((u.countFrames o.station (splitFrames o x).1.length
      (splitFrames o x).2.length).lowerInFlight o.station).removeOrder o.id).updOrd fun d =>
        { d with lossCount := 0 }).countOrd fun c => c.accepted o x).fpl = u.fpl := fun u => by simp
  have hcorrect : ((s.applyCorrection o ((o.est : Int) - x.airtime)).updateRate o.station x.finalRate).standing
      = s.standing := standing_of_fpl (by simp)
  have hsplit := splitFrames_length o x
  unfold State.acceptOutcome
  dsimp only
  rw [standing_of_fpl (hfpl _), concludeFrames_standing _ _ _ _ (h.stations o ho), returnFrames_standing,
    withResult_length, hcorrect]
  omega

theorem State.PoolInv.loseOrder {s : State} {o : Order} (h : s.PoolInv)
    (hn : (s.ord.outstanding.map Order.id).Nodup) (ho : o ∈ s.ord.outstanding) : (s.loseOrder o).PoolInv := by
  refine h.concluded hn ho ?_ (by simp [State.loseOrder])
  have hfpl : ∀ u : State, ((((u.countLost o.station o.frames.length).lowerInFlight o.station).updOrd fun d =>
      { d with lossCount := min (d.lossCount + 1) Config.lossMax }).countOrd fun c =>
        { c with timeouts := satAdd c.timeouts 1 }).fpl = u.fpl := fun u => by simp
  have hgone : ((s.removeOrder o.id).quarantineId o.id).standing = s.standing := standing_of_fpl (by simp)
  unfold State.loseOrder
  dsimp only
  rw [standing_of_fpl (hfpl _), concludeFrames_standing _ _ _ _ (h.stations o ho), hgone]

/-- Cancelled orders: every one of them goes, and its frames come back (R137). -/
theorem State.PoolInv.cancelOrders {s : State} (h : s.PoolInv) (hq : s.ord.quarantine.length ≤ 8) :
    s.cancelOrders.PoolInv := by
  obtain ⟨hnone, -, -, hfpl⟩ := cancelOrders_ord hq
  refine ⟨?_, fun o ho => by rw [hnone] at ho; cases ho⟩
  have htotal := h.total
  simp only [State.poolTotal, State.queuedTotal, State.inFlightTotal, hnone, hfpl, List.length_append,
    List.length_flatMap, List.length_map] at htotal ⊢
  simp only [List.map_nil, List.sum_nil]
  omega

/-! ## Builds -/

/-- The pool, and ids enough for `n` builds more: the orders' ids differ, the quarantine list holds 8 at most, and fewer
than 256 ids are on the two lists. -/
structure State.Supplied (s : State) (n : Nat) : Prop where
  pool : s.PoolInv
  ids : (s.ord.outstanding.map Order.id).Nodup
  quarantine : s.ord.quarantine.length ≤ 8
  room : s.ord.outstanding.length + s.ord.quarantine.length + n < 256

/-- An order's frames are the head of its lane (R120). -/
theorem aggregate_prefix (cfg : Configuration) (rate limit : Nat) (q : List Frame) :
    aggregate cfg rate limit q <+: q := by
  cases q with
  | nil => exact List.prefix_rfl
  | cons f rest =>
    obtain ⟨k, he, -⟩ := extendOrder_spec cfg rate limit [f] rest (by simp) (by simp)
    show extendOrder cfg rate limit [f] rest <+: f :: rest
    rw [he]
    exact (List.prefix_append_right_inj [f]).mpr (List.take_prefix k rest)

/-- An issue moves the head of a lane into a new order, with an id of its own (R31, R119, R122). -/
theorem State.Supplied.issueOrder {s : State} {n : Nat} (h : s.Supplied (n + 1)) {c : Choice} {fs : List Frame}
    (hne : s.lane c.station c.lane ≠ []) (hfs : fs <+: s.lane c.station c.lane) : (s.issueOrder c fs).Supplied n := by
  obtain ⟨est, cohort, hos⟩ := issueOrder_unsent s c fs
  have hi := lt_of_lane_ne_nil hne
  have htake := takeFrames_standing s c.lane fs.length hi
  have hstand : (s.issueOrder c fs).standing = (s.takeFrames c.station c.lane fs.length).standing :=
    standing_of_fpl (by rw [issueOrder_eq]; simp [State.recordOrder, chargeIssue_keeps])
  have hnew : (s.ord.outstanding.map Order.unsent ++ [s.orderRecord c fs est cohort])
      = (s.ord.outstanding ++ [s.orderRecord c fs est cohort]).map Order.unsent := by
    rw [List.map_append]
    rfl
  rw [hnew] at hos
  have hids := map_eq_of_unsent Order.id (fun _ => rfl) hos
  have hlens := map_eq_of_unsent (fun o => o.frames.length) (fun _ => rfl) hos
  have hstations := map_eq_of_unsent Order.station (fun _ => rfl) hos
  have hroom := h.room
  refine ⟨⟨?_, fun o ho => ?_⟩, ?_, by simpa using h.quarantine, ?_⟩
  · have htotal := h.pool.total
    have hlen := hfs.length_le
    rw [poolTotal_eq] at htotal ⊢
    unfold State.inFlightTotal at htotal ⊢
    rw [hlens, List.map_append, List.sum_append, hstand]
    simp only [State.orderRecord, List.map_cons, List.map_nil, List.sum_cons, List.sum_nil]
    omega
  · have hm : o.station ∈ (s.ord.outstanding ++ [s.orderRecord c fs est cohort]).map Order.station :=
      hstations ▸ List.mem_map_of_mem ho
    rw [List.map_append, List.mem_append] at hm
    rcases hm with hm | hm
    · obtain ⟨p, hp, he⟩ := List.mem_map.mp hm
      exact he ▸ h.pool.stations p hp
    · have he : o.station = c.station := by simpa [State.orderRecord] using hm
      exact he ▸ hi
  · rw [hids, List.map_append, List.map_singleton, ← List.concat_eq_append]
    exact (List.nodup_concat _ _).mpr ⟨allocate_free s.ord (by omega), h.ids⟩
  · have hlen := congrArg List.length hos
    simp only [List.length_map, List.length_append, List.length_singleton] at hlen
    rw [hlen]
    simp only [issueOrder_keeps]
    omega

theorem State.Supplied.of_same {s t : State} {m n : Nat} (h : s.Supplied m) (hf : t.fpl = s.fpl)
    (ho : t.ord.outstanding = s.ord.outstanding) (hq : t.ord.quarantine = s.ord.quarantine) (hn : n ≤ m) :
    t.Supplied n :=
  { pool := h.pool.of_same hf ho
    ids := by rw [ho]; exact h.ids
    quarantine := by rw [hq]; exact h.quarantine
    room := by
      have hroom := h.room
      rw [ho, hq]
      omega }

theorem State.Supplied.buildOrder {s : State} {n : Nat} (h : s.Supplied (n + 1)) : s.buildOrder.Supplied n := by
  unfold State.buildOrder
  split
  · exact h.of_same rfl rfl rfl (by omega)
  · rename_i c hc
    have hb : ((s.updSel fun e => { e with choice := none }).buildChoice c).Supplied n := by
      unfold State.buildChoice
      split
      · exact h.of_same (by simp) (by simp) (by simp) (by omega)
      · rename_i hne
        have hs : (s.updSel fun e => { e with choice := none }).Supplied (n + 1) := h.of_same rfl rfl rfl le_rfl
        refine hs.issueOrder (fun he => hne ?_) (aggregate_prefix _ _ _ _)
        rw [he]
        rfl
    exact hb.of_same (by simp) (by simp) (by simp) le_rfl

theorem State.Supplied.buildOrders {s : State} (n : Nat) (h : s.Supplied n) : (State.buildOrders n s).Supplied 0 := by
  induction n generalizing s with
  | zero => exact h
  | succ n ih =>
    unfold State.buildOrders
    split
    · exact ih h.buildOrder
    · exact h.of_same rfl rfl rfl (by omega)

theorem State.Supplied.settle {s : State} (h : s.Supplied 8) : s.settle.Supplied 0 :=
  (h.buildOrders 8).of_same (by simp [State.settle]) (by simp [State.settle]) (by simp [State.settle]) le_rfl

/-- The part's own invariants supply a settlement (R104, R119, R134, R159). -/
theorem supplied_of_invariants {s : State} (hm : s.ModeInv) (ho : s.OrderInv) (hp : s.PoolInv) : s.Supplied 8 := by
  have hquarantine := ho.quarantineLength
  simp only [Config.quarantineIds] at hquarantine
  refine ⟨hp, ho.ids, hquarantine, ?_⟩
  have hwindow := ho.window
  have hfour := window_le hm.config
  omega

end Sys2Proof.Machine
end

section
/-!
StepKeepsThePool: every command, record and deadline of the table keeps the 4,096 entries (R23).
-/
namespace Sys2Proof.Machine

/-- Entries that move between FREE, QUEUED and RETURNING alone (R23). -/
theorem State.PoolInv.of_standing {s t : State} (h : s.PoolInv) (hs : t.standing = s.standing)
    (ho : t.ord.outstanding = s.ord.outstanding) : t.PoolInv :=
  h.congr hs (by rw [ho])

/-! ## The decisions of the commands -/

namespace State.PoolInv
variable {s : State} (h : s.PoolInv) (b : List Byte)
include h

theorem decideConfigure : (decideConfigure s b).1.PoolInv := by
  unfold Machine.decideConfigure
  dsimp only
  repeat' split
  all_goals exact h.of_same (by simp [accept, refuse]) (by simp [accept, refuse])

theorem decideStart : (decideStart s b).1.PoolInv := by
  unfold Machine.decideStart
  split
  · exact h.of_same (by simp [accept]) (by simp [accept])
  all_goals exact h

theorem decideStop : (decideStop s b).1.PoolInv := by
  unfold Machine.decideStop
  split
  iterate 2
    dsimp only [accept]
    split <;> exact h.of_same (by simp) (by simp)
  all_goals exact h

theorem decideAbort (hq : s.ord.quarantine.length ≤ 8) : (decideAbort s b).1.PoolInv := by
  unfold Machine.decideAbort
  split
  iterate 3 exact (h.cancelOrders hq).of_same (by simp [accept]) (by simp [accept])
  all_goals exact h

/-- The orders' frames come back, every lane is returned, and the counters alone change behind that (R46, R167). -/
theorem softReset : s.softReset.PoolInv := by
  have hcancel : (s.updOrd fun o => { o with quarantine := [] }).cancelOrders.PoolInv :=
    State.PoolInv.cancelOrders (s := s.updOrd fun o => { o with quarantine := [] }) (h.of_same rfl rfl) (Nat.zero_le 8)
  have horders : s.softResetOrders.PoolInv := hcancel.of_same rfl rfl
  have hflush : s.softResetOrders.flushAll.PoolInv := horders.of_standing (flushAll_standing _) (by simp)
  unfold State.softReset
  exact hflush.of_standing (standing_congr (by simp) (by simp) (by simp)) (by simp)

theorem decideReset : (decideReset s b).1.PoolInv := by
  unfold Machine.decideReset
  split
  · exact h
  all_goals
    dsimp only [accept]
    exact h.softReset

theorem decideQuiet : (decideQuiet s b).1.PoolInv := by
  unfold Machine.decideQuiet
  split
  · exact h
  all_goals exact h.of_same (by simp [accept]) (by simp [accept])

theorem decideResume : (decideResume s b).1.PoolInv := by
  unfold Machine.decideResume
  split
  · exact h
  all_goals exact h.of_same (by simp [accept]) (by simp [accept])

theorem decideQuery : (decideQuery s b).1.PoolInv := by
  unfold Machine.decideQuery
  dsimp only
  split
  · exact h
  split
  · exact h
  split <;> exact h

theorem decideAdmit : (decideAdmit s b).1.PoolInv := by
  unfold Machine.decideAdmit
  dsimp only
  repeat' split
  all_goals exact h.of_same (by simp [accept, refuse]) (by simp [accept, refuse])

theorem decideRelease : (decideRelease s b).1.PoolInv := by
  unfold Machine.decideRelease
  dsimp only
  split
  · exact h
  split
  · exact h
  split
  · exact h
  have hrelease : ∀ i, (s.releaseStation i).PoolInv := fun i => h.of_same (by simp) (by simp)
  exact (hrelease _).of_standing (returnLanes_standing _ _ _ _) (by simp [accept])

theorem decideSetWeight : (decideSetWeight s b).1.PoolInv := by
  unfold Machine.decideSetWeight
  dsimp only
  repeat' split
  all_goals exact h.of_same rfl rfl

theorem decideHold : (decideHold s b).1.PoolInv := by
  unfold Machine.decideHold
  dsimp only
  split
  · exact h
  split
  · exact h
  split
  · exact h
  dsimp only [accept]
  split <;> exact h.of_same (by simp) (by simp)

theorem decideEnqueue : (decideEnqueue s b).1.PoolInv := by
  unfold Machine.decideEnqueue
  split
  · exact h
  split
  · exact h
  have hoffer : (s.offerFrames (parseEnqueue b)).1.PoolInv := h.of_standing (offerFrames_standing _ _) (by simp)
  dsimp only
  split
  · exact hoffer.selectionRun
  · exact hoffer

theorem decideFlush : (decideFlush s b).1.PoolInv := by
  unfold Machine.decideFlush
  dsimp only
  split
  · exact h
  split
  · exact h
  split
  · exact h
  split
  · exact h
  · exact h.of_standing (returnLanes_standing _ _ _ _) (by simp)

theorem decideSetCohort : (decideSetCohort s b).1.PoolInv := by
  unfold Machine.decideSetCohort
  dsimp only
  repeat' split
  all_goals exact h.of_same (by simp [accept, refuse]) (by simp [accept, refuse])

/-- Every owner's decision keeps the pool. -/
theorem decision (hq : s.ord.quarantine.length ≤ 8) (c : Command) : (c.decision s b).1.PoolInv := by
  cases c with
  | configure => exact h.decideConfigure b
  | start => exact h.decideStart b
  | stop => exact h.decideStop b
  | abort => exact h.decideAbort b hq
  | reset => exact h.decideReset b
  | quiet => exact h.decideQuiet b
  | resume => exact h.decideResume b
  | status => exact h
  | admitStation => exact h.decideAdmit b
  | release => exact h.decideRelease b
  | setWeight => exact h.decideSetWeight b
  | hold => exact h.decideHold b
  | enqueue => exact h.decideEnqueue b
  | flush => exact h.decideFlush b
  | setCohort => exact h.decideSetCohort b
  | query => exact h.decideQuery b

end State.PoolInv

/-! ## The records that the RLI delivers, and the deadlines -/

namespace State.PoolInv
variable {s : State} (h : s.PoolInv)
include h

/-- An outcome accepts an order that is outstanding, or reaches no order (R124). -/
theorem takeOutcome (hn : (s.ord.outstanding.map Order.id).Nodup) (x : Outcome) : (s.takeOutcome x).PoolInv := by
  unfold State.takeOutcome
  split
  · rename_i o hf
    have haccept := h.acceptOutcome hn (List.mem_of_find?_eq_some hf) x
    exact haccept.of_same (by simp) (by simp)
  · split <;> exact h.of_same (by simp) (by simp)

theorem takeReport (pm : Nat) : (s.takeReport pm).PoolInv := by
  unfold State.takeReport
  split <;> exact h.of_same rfl rfl

theorem takeAlert (c : AlertCause) : (s.takeAlert c).PoolInv :=
  h.of_same (by simp [State.takeAlert]) (by simp [State.takeAlert])

theorem takeClear : s.takeClear.PoolInv :=
  h.of_same (by simp [State.takeClear]) (by simp [State.takeClear])

theorem takeMedium {f : State → State} (hf : (f s).PoolInv) : (State.takeMedium f s).PoolInv := by
  unfold State.takeMedium
  split
  · exact h.of_same rfl rfl
  · exact hf

theorem takeDoze (i : Nat) : (s.takeDoze i).PoolInv := by
  unfold State.takeDoze
  split <;> exact h.of_same (by simp) (by simp)

theorem takeWake (i : Nat) : (s.takeWake i).PoolInv := by
  unfold State.takeWake
  split <;> exact h.of_same (by simp) (by simp)

theorem takePoll (i : Nat) : (s.takePoll i).PoolInv := by
  have hgrant : (s.grantPoll i).PoolInv := by
    unfold State.grantPoll
    split <;> exact h.of_same (by simp) (by simp)
  unfold State.takePoll
  split
  · exact h.of_same (by simp) (by simp)
  · exact hgrant
  · exact h

theorem expireFrame (r : ExpiryRef) : (s.expireFrame r).PoolInv :=
  h.of_standing (expireFrame_standing s r) (by simp)

theorem expireDue : s.expireDue.PoolInv := by
  unfold State.expireDue
  split
  · exact h
  · exact h.expireFrame _

/-- The order that times out is outstanding (R131). -/
theorem timeOutOrder {o : Order} (hn : (s.ord.outstanding.map Order.id).Nodup) (ho : o ∈ s.ord.outstanding) :
    (s.timeOutOrder o).PoolInv := by
  unfold State.timeOutOrder
  exact (h.loseOrder hn ho).of_same (by simp) (by simp)

/-! ## The links' own operations -/

theorem takeDirection (b : Byte) : (s.takeDirection b).PoolInv := by
  unfold State.takeDirection
  split <;> exact h.of_same rfl rfl

theorem endWrite (b : List Byte) : (s.endWrite b).PoolInv := by
  unfold State.endWrite
  split <;> exact h.of_same rfl rfl

theorem endRead (n : Nat) : (s.endRead n).PoolInv := by
  unfold State.endRead
  split <;> exact h.of_same rfl rfl

theorem endIdle (n : Nat) : (s.endIdle n).PoolInv := by
  unfold State.endIdle
  split <;> exact h.of_same rfl rfl

theorem formTokenReturn : s.formTokenReturn.PoolInv := by
  refine h.of_standing (formTokenReturn_standing s) ?_
  unfold State.formTokenReturn
  split <;> rfl

theorem formAlert : s.formAlert.PoolInv := by
  unfold State.formAlert
  split <;> exact h.of_same rfl rfl

theorem endPulse : s.endPulse.PoolInv := by
  unfold State.endPulse
  split <;> exact h.of_same rfl rfl

theorem endRecord (b : List Byte) (c : Bool) : (s.endRecord b c).PoolInv := by
  unfold State.endRecord
  split <;> exact h.of_same rfl rfl

theorem startRecord (b : List Byte) : (s.startRecord b).PoolInv := by
  unfold State.startRecord
  dsimp only
  split <;> exact (h.endRecord b false).of_same rfl rfl

theorem beginSending (b : Bool) : (s.beginSending b).PoolInv := by
  unfold State.beginSending
  split <;> exact h.of_same rfl rfl

theorem finishSending : s.finishSending.PoolInv := by
  unfold State.finishSending
  split
  · exact h
  · split <;> exact h.of_same rfl rfl

theorem giveCancel : s.giveCancel.PoolInv := by
  unfold State.giveCancel
  split <;> exact h.of_same rfl rfl

theorem giveNotes (n : Nat) : (s.giveNotes n).PoolInv :=
  h.of_same rfl rfl

theorem giveOrders (n : Nat) : (s.giveOrders n).PoolInv :=
  h.congr (standing_of_fpl (by simp)) (giveOrders_unsent s n)

theorem expireBlanking : s.expireBlanking.PoolInv := by
  unfold State.expireBlanking
  split <;> exact h.of_same rfl rfl

end State.PoolInv

/-! ## Every command of the table -/

namespace State.Supplied
variable {s : State} (h : s.Supplied 8)
include h

theorem dispatch (c : Command) : (s.dispatch c c.decision).PoolInv := by
  have hpop : s.settle.popInbound.PoolInv := h.settle.pool.of_same rfl rfl
  unfold State.dispatch
  split
  · exact h.pool
  · rename_i r _
    dsimp only
    split
    · exact (hpop.decision r.body h.settle.quarantine c).of_same (by simp) (by simp)
    · exact hpop.of_same (by simp) (by simp)

theorem rejectUnknown : s.rejectUnknown.PoolInv := by
  unfold State.rejectUnknown
  split
  · exact h.pool
  · exact h.settle.pool.of_same (by simp [State.popInbound]) (by simp [State.popInbound])

/-- A delivery: its owner takes the record from a part whose choice has been followed through (R106, R186). -/
theorem deliver {take : MacRecord → Option (State → State)}
    (ht : ∀ (r : MacRecord) (f : State → State) (u : State), take r = some f → u.PoolInv →
      (u.ord.outstanding.map Order.id).Nodup → (f u).PoolInv) : (s.deliver take).PoolInv := by
  unfold State.deliver
  split
  · exact h.pool
  · split
    · exact h.pool
    · exact ht _ _ _ ‹_› (h.settle.pool.of_same rfl rfl) h.settle.ids

theorem takeExpiry : s.takeExpiry.PoolInv := by
  unfold State.takeExpiry
  split
  · exact h.pool
  · split
    · exact h.pool.expireFrame _
    · exact h.settle.pool.expireDue

theorem takeTimeout : s.takeTimeout.PoolInv := by
  by_cases hd : s.timeoutDue = none
  · unfold State.takeTimeout
    rw [hd]
    exact h.pool
  · rw [takeTimeout_settle hd]
    unfold State.takeTimeout
    split
    · exact h.settle.pool
    · rename_i o ho
      rw [settle_settle]
      exact h.settle.pool.timeOutOrder h.settle.ids (List.mem_of_find?_eq_some ho)

theorem takeRoundBoundary : s.takeRoundBoundary.PoolInv := by
  unfold State.takeRoundBoundary
  split
  · exact h.settle.pool.of_same (by simp) (by simp)
  · exact h.pool

theorem takePromptBoundary : s.takePromptBoundary.PoolInv := by
  unfold State.takePromptBoundary
  split
  · exact h.settle.pool.of_same (by simp) (by simp)
  · exact h.pool

theorem whenReleased {f : State → State} {t : State} (ht : s.whenReleased f = .next t) (hf : (f s).PoolInv) :
    t.PoolInv := by
  unfold State.whenReleased at ht
  injection ht with ht
  subst ht
  split
  · exact h.pool
  · exact hf

theorem whenSelected {n : Nat} {f : State → State} {t : State} (ht : s.whenSelected n f = .next t)
    (hf : (f s).PoolInv) : t.PoolInv := by
  unfold State.whenSelected at ht
  injection ht with ht
  subst ht
  split
  · exact h.pool.of_same rfl rfl
  · exact hf

theorem command (c : Command) {t : State} (ht : Machine.exec c.event s = .next t) : t.PoolInv := by
  rw [exec_event] at ht
  refine h.whenReleased ht ?_
  split
  · exact (h.dispatch c).of_same (by simp) (by simp)
  · exact h.dispatch c

/-- Every command of the table keeps the pool. -/
theorem exec {i : Instr} {t : State} (ht : exec i s = .next t) : t.PoolInv := by
  have hs := h.pool
  cases i with
  | writeTransaction b => exact h.whenSelected (f := fun s => s.endWrite b) ht (hs.endWrite b)
  | readTransaction n => exact h.whenSelected (f := fun s => s.endRead n) ht (hs.endRead n)
  | idleTransaction n => exact h.whenSelected (f := fun s => s.endIdle n) ht (hs.endIdle n)
  | directionByte b => exact h.whenSelected (f := fun s => s.takeDirection b) ht (hs.takeDirection b)
  | unknownType => exact h.whenReleased ht h.rejectUnknown
  | configure => exact h.command .configure ht
  | start => exact h.command .start ht
  | stop => exact h.command .stop ht
  | abort => exact h.command .abort ht
  | reset => exact h.command .reset ht
  | quiet => exact h.command .quiet ht
  | resume => exact h.command .resume ht
  | status => exact h.command .status ht
  | admitStation => exact h.command .admitStation ht
  | release => exact h.command .release ht
  | setWeight => exact h.command .setWeight ht
  | hold => exact h.command .hold ht
  | enqueue => exact h.command .enqueue ht
  | flush => exact h.command .flush ht
  | setCohort => exact h.command .setCohort ht
  | query => exact h.command .query ht
  | txOutcome =>
    unfold Machine.exec execTxOutcome at ht
    refine h.whenReleased ht (h.deliver fun r f u hr hu hn => ?_)
    cases r <;> cases hr
    exact hu.takeOutcome hn _
  | mediumReport =>
    unfold Machine.exec execMediumReport at ht
    refine h.whenReleased ht (h.deliver fun r f u hr hu _ => ?_)
    cases r <;> cases hr
    exact hu.takeMedium (hu.takeReport _)
  | mediumAlert =>
    unfold Machine.exec execMediumAlert at ht
    refine h.whenReleased ht (h.deliver fun r f u hr hu _ => ?_)
    cases r <;> cases hr
    exact hu.takeMedium (hu.takeAlert _)
  | mediumClear =>
    unfold Machine.exec execMediumClear at ht
    refine h.whenReleased ht (h.deliver fun r f u hr hu _ => ?_)
    cases r <;> cases hr
    exact hu.takeMedium hu.takeClear
  | doze =>
    unfold Machine.exec execDoze at ht
    refine h.whenReleased ht (h.deliver fun r f u hr hu _ => ?_)
    cases r <;> cases hr
    exact hu.takeDoze _
  | wake =>
    unfold Machine.exec execWake at ht
    refine h.whenReleased ht (h.deliver fun r f u hr hu _ => ?_)
    cases r <;> cases hr
    exact hu.takeWake _
  | poll =>
    unfold Machine.exec execPoll at ht
    refine h.whenReleased ht (h.deliver fun r f u hr hu _ => ?_)
    cases r <;> cases hr
    exact hu.takePoll _
  | frameExpiry => exact h.whenReleased ht h.takeExpiry
  | orderTimeout => exact h.whenReleased ht h.takeTimeout
  | roundBoundary => exact h.whenReleased ht h.takeRoundBoundary
  | promptBoundary => exact h.whenReleased ht h.takePromptBoundary
  | orderBuild => exact h.whenReleased ht (State.Supplied.buildOrder (n := 7) h).pool
  | pinReset =>
    cases ht
    exact (pinResetValues_poolInv true).of_same rfl rfl
  | resetNRelease =>
    cases ht
    exact hs.of_same rfl rfl
  | tokenReturn => exact h.whenReleased ht hs.formTokenReturn
  | alert => exact h.whenReleased ht hs.formAlert
  | attnPulse => exact h.whenReleased ht hs.endPulse
  | recordStart cut => exact h.whenReleased (f := fun s => s.startRecord cut) ht (hs.startRecord cut)
  | recordEnd framed => exact h.whenReleased (f := fun s => s.endRecord framed true) ht (hs.endRecord framed true)
  | radioRecordSent => exact h.whenReleased ht hs.finishSending
  | radioRecordBegin r => exact h.whenReleased (f := fun s => s.beginSending r) ht (hs.beginSending r)
  | cancelAll => exact h.whenReleased ht hs.giveCancel
  | linkNoteHanded => exact h.whenReleased (f := fun s => s.giveNotes 1) ht (hs.giveNotes 1)
  | txOrderPlaced => exact h.whenReleased (f := fun s => s.giveOrders 1) ht (hs.giveOrders 1)
  | blankingExpiry => exact h.whenReleased ht hs.expireBlanking

end State.Supplied

/-- Settles O56: what every shared operation moves between the four kinds of entries, carried through a step. -/
theorem stepKeepsThePool : Obligations.StepKeepsThePool := by
  unfold Obligations.StepKeepsThePool
  intro s t hm ho hp hs
  have h := supplied_of_invariants hm ho hp
  unfold step at hs
  split at hs
  · rename_i rest _
    have hnext : { s with pending := rest }.Supplied 8 := h.of_same rfl rfl rfl le_rfl
    exact hnext.exec hs
  · split at hs
    · exact h.exec hs
    · injection hs with hs
      subst hs
      exact hp.of_same rfl rfl

end Sys2Proof.Machine
end

section
/-! PROMPT_BOUNDARY (R60, R74 to R76): when a prompt boundary is due, and the state it makes. -/
namespace Sys2Proof.Machine

theorem exec_promptBoundary {s : State} (h : s.resetN = false) :
    exec .promptBoundary s = .next s.takePromptBoundary := by
  show execPromptBoundary s = _
  unfold execPromptBoundary
  rw [whenReleased_of_released _ h]

/-- A prompt boundary is due at its time, unless prompt_sync leaves it to the round boundary (R74, R75). -/
theorem promptDue_iff (s : State) :
    s.promptDue = true ↔ s.rck.clocksRunning = true ∧ passed s.rck.deviceTime s.rck.nextPromptAt = true
      ∧ (s.mod.config.promptSync = false ∨ 0 < (s.rck.nextRoundAt - s.rck.nextPromptAt).toInt) := by
  simp [State.promptDue, and_assoc]

theorem takePromptBoundary_of_due {s : State} (hc : s.sel.choice = none) (h : s.promptDue = true) :
    s.takePromptBoundary = s.makePromptBoundary := by
  unfold State.takePromptBoundary
  rw [if_pos h, settle_of_no_choice hc]

theorem takePromptBoundary_of_not_due {s : State} (h : ¬ s.promptDue = true) : s.takePromptBoundary = s := by
  unfold State.takePromptBoundary
  rw [if_neg h]

/-- A prompt boundary writes the period, the next boundary and the budget, and then runs the selector (R60, R76). -/
theorem makePromptBoundary_eq (s : State) : s.makePromptBoundary =
    State.selectionRun { s with
      rck := { s.rck with
        promptPeriod := s.rck.promptPeriod + 1
        nextPromptAt := deadlineAfter s.rck.nextPromptAt s.mod.config.promptPeriodUs }
      sel := { s.sel with
        promptAllot := promptAllotment s.mod.config s.sampleFree
        promptBudget := (promptAllotment s.mod.config s.sampleFree : Nat) } } := rfl

/-- Settles O48: the boundary that is due, and the three reasons why none is. -/
theorem promptBoundaryResetsTheBudget : Obligations.PromptBoundaryResetsTheBudget := by
  unfold Obligations.PromptBoundaryResetsTheBudget
  rintro s _ _ _ _ hr hc rfl rfl rfl rfl
  rw [exec_promptBoundary hr]
  refine ⟨fun hrun hpassed hsync => ?_, fun hno => ?_⟩
  · have hdue : s.promptDue = true := (promptDue_iff s).mpr ⟨hrun, hpassed, hsync⟩
    rw [takePromptBoundary_of_due hc hdue, makePromptBoundary_eq]
    rfl
  · rw [takePromptBoundary_of_not_due]
    rw [promptDue_iff]
    rintro ⟨hrun, hpassed, hsync⟩
    rcases hno with hstopped | hearly | ⟨hon, hlate⟩
    · simp [hstopped] at hrun
    · simp [hearly] at hpassed
    · rcases hsync with hoff | hbefore
      · simp [hon] at hoff
      · omega

end Sys2Proof.Machine
end

section
/-!
The quanta of a boundary (R55 to R57) and the rate update (R51). Each quantum is rounded down by less than one
microsecond, so the quanta together fall short of the pool by less than one microsecond a station.
-/
namespace Sys2Proof.Machine

/-! ## Quanta -/

/-- A quantum is at most the station's share of the pool. -/
theorem mul_quantumOf_le (pool weight w : Nat) : w * quantumOf pool weight w ≤ pool * weight := by
  unfold quantumOf
  split
  · simp
  · exact Nat.mul_div_le _ _

/-- A quantum is less than one microsecond under the station's share of the pool. -/
theorem lt_mul_quantumOf_succ (pool weight : Nat) {w : Nat} (hw : 0 < w) :
    pool * weight < w * (quantumOf pool weight w + 1) := by
  unfold quantumOf
  rw [if_neg hw.ne']
  exact Nat.lt_mul_div_succ _ hw

theorem mul_sum_quantumOf_le {α : Type} (pool w : Nat) (weight : α → Nat) (xs : List α) :
    w * (xs.map fun x => quantumOf pool (weight x) w).sum ≤ pool * (xs.map weight).sum := by
  induction xs with
  | nil => simp
  | cons x xs ih =>
    have hx := mul_quantumOf_le pool (weight x) w
    simp only [List.map_cons, List.sum_cons, Nat.mul_add]
    omega

theorem le_mul_sum_quantumOf {α : Type} (pool : Nat) {w : Nat} (hw : 0 < w) (weight : α → Nat) (xs : List α) :
    pool * (xs.map weight).sum + xs.length
      ≤ w * ((xs.map fun x => quantumOf pool (weight x) w).sum + xs.length) := by
  induction xs with
  | nil => simp
  | cons x xs ih =>
    have hx := lt_mul_quantumOf_succ pool (weight x) hw
    simp only [List.map_cons, List.sum_cons, List.length_cons, Nat.mul_add] at hx ih ⊢
    omega

/-- The weight of station `i` in the round that a boundary begins (R11). -/
def State.weightAhead (s : State) (i : Nat) : Nat :=
  (s.station i).stagedWeight.getD (s.station i).weight

theorem boundaryWeight_eq (s : State) : s.boundaryWeight = (s.sel.active.map s.weightAhead).sum := rfl

theorem boundaryQuantum_eq (s : State) (pool : Nat) :
    s.boundaryQuantum pool = fun i => quantumOf pool (s.weightAhead i) s.boundaryWeight := rfl

/-- The quanta never exceed the pool (R56). -/
theorem sum_boundaryQuantum_le (s : State) (pool : Nat) : (s.sel.active.map (s.boundaryQuantum pool)).sum ≤ pool := by
  rw [boundaryQuantum_eq]
  rcases Nat.eq_zero_or_pos s.boundaryWeight with hw | hw
  · simp [hw, quantumOf]
  · have h := mul_sum_quantumOf_le pool s.boundaryWeight s.weightAhead s.sel.active
    rw [← boundaryWeight_eq, Nat.mul_comm pool] at h
    exact Nat.le_of_mul_le_mul_left h hw

/-- The quanta leave less than one microsecond of the pool for each station on the active list (R56). -/
theorem lt_sum_boundaryQuantum (s : State) (pool : Nat) (hw : 0 < s.boundaryWeight) :
    pool < (s.sel.active.map (s.boundaryQuantum pool)).sum + s.sel.active.length := by
  have hlen : 0 < s.sel.active.length := by
    rw [List.length_pos_iff]
    intro hnil
    simp [boundaryWeight_eq, hnil] at hw
  have h := le_mul_sum_quantumOf pool hw s.weightAhead s.sel.active
  rw [← boundaryWeight_eq, Nat.mul_comm pool] at h
  rw [boundaryQuantum_eq]
  exact Nat.lt_of_mul_lt_mul_left (Nat.lt_of_lt_of_le (Nat.lt_add_of_pos_right hlen) h)

/-! ## Rates -/

theorem clampRate_of_inRange {q : Nat} (hlo : 2 ≤ q) (hhi : q ≤ 2400) : clampRate q = q := by
  unfold clampRate clampNat Config.minRate Config.maxRate
  rw [if_neg (by omega), if_neg (by omega)]

/-- The blend of two rates in range needs no clamp (R51). -/
theorem blendRate_of_inRange {old q : Nat} (hold : 2 ≤ old ∧ old ≤ 2400) (hq : 2 ≤ q ∧ q ≤ 2400) :
    blendRate old q = (3 * old + q + 2) / 4 := by
  unfold blendRate
  rw [clampRate_of_inRange hq.1 hq.2, clampRate_of_inRange]
  · omega
  · omega

/-- Settles O53: the two bounds on the sum of the quanta, the range of a rate update and its blend. -/
theorem quantaStayWithinThePool : Obligations.QuantaStayWithinThePool := by
  unfold Obligations.QuantaStayWithinThePool
  exact ⟨fun s pool => ⟨sum_boundaryQuantum_le s pool, lt_sum_boundaryQuantum s pool⟩, blendRate_bounds,
    fun old q ho1 ho2 hq1 hq2 => blendRate_of_inRange ⟨ho1, ho2⟩ ⟨hq1, hq2⟩⟩

end Sys2Proof.Machine
end

section
/-!
StepKeepsModesAndOrders: what ORD's two lists keep of themselves (R118, R119, R122, R134). An order that is issued takes a
free id; one that goes puts its id in quarantine or leaves it free.
-/
namespace Sys2Proof.Machine

/-- One order's record under the configuration that stands: its frames, its estimate, its deadline (R49, R118, R120, R122). -/
structure Order.Sound (cfg : Configuration) (o : Order) : Prop where
  frames : 1 ≤ o.frames.length ∧ o.frames.length ≤ 16
  estimate : o.est ≤ Config.airtimeMax
  deadline : o.deadline = deadlineAfter o.issueTime (cfg.orderTimeoutMs * 1000)

theorem Order.sound_unsent {cfg : Configuration} {o : Order} : o.unsent.Sound cfg ↔ o.Sound cfg :=
  ⟨fun h => ⟨h.frames, h.estimate, h.deadline⟩, fun h => ⟨h.frames, h.estimate, h.deadline⟩⟩

/-- The outstanding list and the quarantine list: within their lengths, and no id twice on them (R104, R119, R134). -/
structure Ord.Sound (cfg : Configuration) (d : Ord) : Prop where
  window : d.outstanding.length ≤ cfg.window
  ids : (d.outstanding.map Order.id).Nodup
  quarantineIds : d.quarantine.Nodup
  quarantineLength : d.quarantine.length ≤ Config.quarantineIds
  apart : ∀ o ∈ d.outstanding, o.id ∉ d.quarantine
  orders : ∀ o ∈ d.outstanding, o.Sound cfg

/-! ## Ids (R119) -/

/-- An order that stands for an id in quarantine: allocation skips the ids of the two lists alike (R119). -/
def Order.holding (id : OrderId) : Order where
  id := id
  station := 0
  lane := .bulk
  kind := .group
  frames := []
  est := 0
  issueTime := 0
  deadline := 0
  cohort := none
  round := 0
  promptPeriod := 0
  sent := .waiting

/-- ORD with an order for every id in quarantine, so that one list holds all the ids that allocation skips. -/
def Ord.merged (d : Ord) : Ord :=
  { d with outstanding := d.outstanding ++ d.quarantine.map Order.holding, quarantine := [] }

theorem merged_ids (d : Ord) : d.merged.outstanding.map Order.id = d.outstanding.map Order.id ++ d.quarantine := by
  simp [Ord.merged, Order.holding, Function.comp_def]

theorem merged_allocate (d : Ord) : d.merged.allocate = d.allocate := by
  have htaken : d.merged.idTaken = d.idTaken := by
    funext id
    simp [Ord.merged, Ord.idTaken, List.any_map, Order.holding, Function.comp_def, List.any_beq']
  unfold Ord.allocate
  rw [htaken]
  rfl

/-- Allocation finds an id that is on neither list while fewer than 256 are on the two. -/
theorem allocate_untaken (d : Ord) (h : d.outstanding.length + d.quarantine.length < 256) :
    d.allocate ∉ d.outstanding.map Order.id ∧ d.allocate ∉ d.quarantine := by
  have hfree := allocate_free d.merged (by simpa [Ord.merged] using h)
  rwa [merged_allocate, merged_ids, List.mem_append, not_or] at hfree

/-! ## The two lists -/

namespace Ord.Sound
variable {cfg : Configuration} {d e : Ord} (h : d.Sound cfg)
include h

theorem congr (ho : e.outstanding.map Order.unsent = d.outstanding.map Order.unsent) (hq : e.quarantine = d.quarantine) :
    e.Sound cfg := by
  have hlen := congrArg List.length ho
  simp only [List.length_map] at hlen
  have hids : e.outstanding.map Order.id = d.outstanding.map Order.id := map_eq_of_unsent Order.id (fun _ => rfl) ho
  have hmem : ∀ o ∈ e.outstanding, ∃ p ∈ d.outstanding, p.unsent = o.unsent := fun o hm =>
    List.mem_map.mp (ho ▸ List.mem_map_of_mem hm)
  refine ⟨hlen ▸ h.window, hids ▸ h.ids, hq ▸ h.quarantineIds, hq ▸ h.quarantineLength, fun o hm => ?_, fun o hm => ?_⟩
  · obtain ⟨p, hp, he⟩ := hmem o hm
    have hid : p.unsent.id = o.unsent.id := by rw [he]
    have ho' : o.id = p.id := hid.symm
    rw [ho', hq]
    exact h.apart p hp
  · obtain ⟨p, hp, he⟩ := hmem o hm
    rw [← Order.sound_unsent, ← he, Order.sound_unsent]
    exact h.orders p hp

/-- Without orders no configuration binds the lists (R160). -/
theorem of_no_orders (hnone : d.outstanding = []) (other : Configuration) : d.Sound other :=
  ⟨by simp [hnone], h.ids, h.quarantineIds, h.quarantineLength, h.apart, by simp [hnone]⟩

/-- Orders that go and ids that leave quarantine (R125, R135). -/
theorem shrink (ho : e.outstanding.Sublist d.outstanding) (hq : e.quarantine.Sublist d.quarantine) : e.Sound cfg where
  window := ho.length_le.trans h.window
  ids := h.ids.sublist (ho.map _)
  quarantineIds := h.quarantineIds.sublist hq
  quarantineLength := hq.length_le.trans h.quarantineLength
  apart o hm hmq := h.apart o (ho.subset hm) (hq.subset hmq)
  orders o hm := h.orders o (ho.subset hm)

/-- Orders that go with their ids `gone` to the tail of quarantine, which evicts from its head (R131, R134, R137). -/
theorem retire {gone : List OrderId} (ho : e.outstanding.Sublist d.outstanding)
    (hg : gone.Sublist (d.outstanding.map Order.id)) (hleft : ∀ o ∈ e.outstanding, o.id ∉ gone)
    (hq : e.quarantine = (d.quarantine ++ gone).drop (d.quarantine.length + gone.length - 8)) : e.Sound cfg := by
  have hsub : e.quarantine.Sublist (d.quarantine ++ gone) := hq ▸ List.drop_sublist _ _
  have hnew : ∀ id ∈ gone, id ∉ d.quarantine := fun id hid => by
    obtain ⟨o, hm, rfl⟩ := List.mem_map.mp (hg.subset hid)
    exact h.apart o hm
  refine ⟨ho.length_le.trans h.window, h.ids.sublist (ho.map _), ?_, ?_, fun o hm hmq => ?_,
    fun o hm => h.orders o (ho.subset hm)⟩
  · exact (List.nodup_append'.mpr ⟨h.quarantineIds, h.ids.sublist hg, fun id hid hid' => hnew id hid' hid⟩).sublist hsub
  · rw [hq, List.length_drop, List.length_append, Config.quarantineIds]
    omega
  · rcases List.mem_append.mp (hsub.subset hmq) with hm' | hm'
    · exact h.apart o (ho.subset hm) hm'
    · exact hleft o hm hm'

/-- A new order joins the outstanding list with an id of its own while the window has room (R104, R119, R122). -/
theorem issue {o : Order} (ho : e.outstanding.map Order.unsent = d.outstanding.map Order.unsent ++ [o.unsent])
    (hq : e.quarantine = d.quarantine) (hroom : d.outstanding.length < cfg.window)
    (hid : o.id ∉ d.outstanding.map Order.id ∧ o.id ∉ d.quarantine) (hs : o.Sound cfg) : e.Sound cfg := by
  suffices hf : ({ d with outstanding := d.outstanding ++ [o] } : Ord).Sound cfg from hf.congr (by simpa using ho) hq
  refine ⟨by simpa using hroom, ?_, h.quarantineIds, h.quarantineLength, fun p hp => ?_, fun p hp => ?_⟩
  · rw [List.map_append, List.map_singleton, ← List.concat_eq_append]
    exact (List.nodup_concat _ _).mpr ⟨hid.1, h.ids⟩
  · rcases List.mem_append.mp hp with hp | hp
    · exact h.apart p hp
    · rw [List.mem_singleton.mp hp]
      exact hid.2
  · rcases List.mem_append.mp hp with hp | hp
    · exact h.orders p hp
    · rw [List.mem_singleton.mp hp]
      exact hs

end Ord.Sound

/-! ## The frames of an order (R120) -/

/-- An order holds at most 16 frames (R159). -/
theorem orderMaxFrames_le {c : Configuration} (h : c.inRanges = true) : c.orderMaxFrames ≤ 16 := by
  simp only [Configuration.inRanges, inRange, Bool.and_eq_true, decide_eq_true_eq] at h
  omega

theorem aggregate_length (cfg : Configuration) (rate limit : Nat) {q : List Frame} (hq : q ≠ []) :
    1 ≤ (aggregate cfg rate limit q).length ∧ (aggregate cfg rate limit q).length ≤ max 1 limit := by
  cases q with
  | nil => exact absurd rfl hq
  | cons f rest =>
    obtain ⟨k, he, hk, hlimit, -⟩ := extendOrder_spec cfg rate limit [f] rest (by simp) (by simp)
    show 1 ≤ (extendOrder cfg rate limit [f] rest).length ∧ (extendOrder cfg rate limit [f] rest).length ≤ max 1 limit
    rw [he, List.length_append, List.length_take_of_le hk, List.length_singleton]
    by_cases h1 : 1 < 1 + k
    · have := (hlimit h1).1
      simp only [List.length_singleton] at this
      omega
    · omega

/-- The frames that a choice takes: one at least, and 16 at most (R118, R120). -/
theorem aggregate_frames {cfg : Configuration} (hc : cfg.inRanges = true) (rate : Nat) (k : Kind) {q : List Frame}
    (hq : q ≠ []) :
    1 ≤ (aggregate cfg rate (frameLimit cfg k) q).length ∧ (aggregate cfg rate (frameLimit cfg k) q).length ≤ 16 := by
  have hlen := aggregate_length cfg rate (frameLimit cfg k) hq
  have hmax := orderMaxFrames_le hc
  have hlimit : frameLimit cfg k ≤ 16 := by
    unfold frameLimit
    split <;> omega
  omega

/-! ## What the operations make of the two lists -/

/-- An issue puts its order behind those that stand, with the estimate of its frames (R49, R118, R122). -/
theorem issueOrder_record (s : State) (c : Choice) (fs : List Frame) :
    (s.issueOrder c fs).ord.outstanding.map Order.unsent = s.ord.outstanding.map Order.unsent
      ++ [(s.orderRecord c fs (estimate s.mod.config (s.orderRate c.station) fs)
        (s.station c.station).cohort).unsent] := by
  rw [issueOrder_eq, serveOrders_unsent, State.recordOrder, List.map_append]
  simp only [chargeIssue_keeps, takeFrames_keeps]
  rfl

/-- An id that joins a quarantine list of 8 at most (R134). -/
theorem quarantineId_quarantine {s : State} (hq : s.ord.quarantine.length ≤ 8) (id : OrderId) :
    (s.quarantineId id).ord.quarantine = (s.ord.quarantine ++ [id]).drop (s.ord.quarantine.length + 1 - 8) := by
  unfold State.quarantineId Config.quarantineIds
  split
  · rename_i hfull
    have hlen : s.ord.quarantine.length = 8 := le_antisymm hq hfull
    simp [hlen, List.drop_append]
  · rename_i hroom
    have hnone : s.ord.quarantine.length + 1 - 8 = 0 := by omega
    simp [hnone]

/-- A lost order has left the outstanding list, and its id stands in quarantine (R131). -/
theorem loseOrder_lists {s : State} (hq : s.ord.quarantine.length ≤ 8) (o : Order) :
    (s.loseOrder o).ord.outstanding = s.ord.outstanding.filter (fun x => x.id != o.id)
      ∧ (s.loseOrder o).ord.quarantine = (s.ord.quarantine ++ [o.id]).drop (s.ord.quarantine.length + 1 - 8) := by
  have hgone := quarantineId_quarantine (s := s.removeOrder o.id) (by simpa using hq) o.id
  simp only [removeOrder_keeps] at hgone
  exact ⟨by simp [State.loseOrder, State.removeOrder], by simp [State.loseOrder, hgone]⟩

theorem acceptOutcome_outstanding_eq (s : State) (o : Order) (x : Outcome) :
    (s.acceptOutcome o x).ord.outstanding = s.ord.outstanding.filter fun p => p.id != o.id := by
  simp [State.acceptOutcome, State.removeOrder]

end Sys2Proof.Machine
end

section
/-!
StepKeepsModesAndOrders: the part between two events (Regular) and within a conclusion, where a drain may have lost its last
order (Orderly). What the shared operations of SEL, ORD and MOD make of the two (R82, R104, R118 to R134, R150 to R166).
-/
namespace Sys2Proof.Machine

/-- ModeInv and OrderInv but for what DRAINING asks of the outstanding list, which a conclusion may leave empty until
the report of it ends the drain (R165). -/
structure State.Orderly (s : State) : Prop where
  modes : s.ModeInv
  lists : s.ord.Sound s.mod.config
  stopped : s.mod.mode = .halted ∨ s.mod.mode = .ready → s.ord.outstanding = []
  choice : s.sel.choice ≠ none → s.mod.mode = .running ∧ s.ord.outstanding.length < s.mod.config.window

/-- ModeInv and OrderInv, in the shape in which the operations keep them. -/
structure State.Regular (s : State) : Prop extends State.Orderly s where
  draining : s.mod.mode = .draining → s.ord.outstanding ≠ []

theorem regular_iff (s : State) : s.Regular ↔ s.ModeInv ∧ s.OrderInv := by
  constructor
  · rintro ⟨⟨hm, hl, hs, hc⟩, hd⟩
    exact ⟨hm, hl.window, hl.ids, hl.quarantineIds, hl.quarantineLength, hl.apart, hs, hd, hc,
      fun o ho => (hl.orders o ho).frames, fun o ho => (hl.orders o ho).estimate, fun o ho => (hl.orders o ho).deadline⟩
  · rintro ⟨hm, ho⟩
    exact ⟨⟨hm, ⟨ho.window, ho.ids, ho.quarantineIds, ho.quarantineLength, ho.apart,
      fun o hm => ⟨ho.frames o hm, ho.estimates o hm, ho.deadlines o hm⟩⟩, ho.stopped, ho.choice⟩, ho.draining⟩

/-- What the two invariants read is the same in `t` as in `s`: the mode, the causes, the configuration, the clocks, the
orders apart from their sent fields, the ids in quarantine; and `t` has no choice that `s` has not. -/
@[simp] def State.SameRules (s t : State) : Prop :=
  t.mod.mode = s.mod.mode ∧ t.mod.causes = s.mod.causes ∧ t.mod.config = s.mod.config
    ∧ t.mod.configValid = s.mod.configValid ∧ t.rck.timeRunning = s.rck.timeRunning
    ∧ t.rck.clocksRunning = s.rck.clocksRunning
    ∧ t.ord.outstanding.map Order.unsent = s.ord.outstanding.map Order.unsent
    ∧ t.ord.quarantine = s.ord.quarantine ∧ (t.sel.choice ≠ none → s.sel.choice ≠ none)

theorem State.ModeInv.congr {s t : State} (h : s.ModeInv) (he : t.mod.mode = s.mod.mode ∧ t.mod.causes = s.mod.causes
    ∧ t.mod.config = s.mod.config ∧ t.mod.configValid = s.mod.configValid ∧ t.rck.timeRunning = s.rck.timeRunning
    ∧ t.rck.clocksRunning = s.rck.clocksRunning) : t.ModeInv := by
  obtain ⟨hmode, hcauses, hconfig, hvalid, htime, hclocks⟩ := he
  obtain ⟨h1, h2, h3, h4, h5, h6, h7⟩ := h
  constructor <;> simpa only [hmode, hcauses, hconfig, hvalid, htime, hclocks]

theorem State.Orderly.congr {s t : State} (h : s.Orderly) (he : s.SameRules t) : t.Orderly := by
  obtain ⟨hmode, hcauses, hconfig, hvalid, htime, hclocks, hos, hq, hchoice⟩ := he
  have hmodes := h.modes.congr ⟨hmode, hcauses, hconfig, hvalid, htime, hclocks⟩
  have hlen := congrArg List.length hos
  simp only [List.length_map] at hlen
  refine ⟨hmodes, hconfig ▸ h.lists.congr hos hq, fun hm => ?_, fun hc => ?_⟩
  · have hnone := h.stopped (hmode ▸ hm)
    rw [hnone] at hlen
    exact List.eq_nil_of_length_eq_zero hlen
  · rw [hmode, hconfig, hlen]
    exact h.choice (hchoice hc)

theorem State.Regular.congr {s t : State} (h : s.Regular) (he : s.SameRules t) : t.Regular := by
  refine ⟨h.toOrderly.congr he, fun hm hnone => ?_⟩
  obtain ⟨hmode, -, -, -, -, -, hos, -⟩ := he
  rw [hnone, List.map_nil] at hos
  exact h.draining (hmode ▸ hm) (List.map_eq_nil_iff.mp hos.symm)

/-! ## Modes (R82, R154, R158) -/

/-- A part in READY: valid, the clocks stopped, no order outstanding (R161, R165 to R167). -/
theorem regular_ready {t : State} (hmode : t.mod.mode = .ready) (hvalid : t.mod.configValid = true)
    (hconfig : t.mod.config.inRanges = true) (htime : t.rck.timeRunning = true) (hclocks : t.rck.clocksRunning = false)
    (hlists : t.ord.Sound t.mod.config) (hnone : t.ord.outstanding = []) (hchoice : t.sel.choice = none) :
    t.Regular where
  modes := ⟨by simp [hmode, hvalid], by simp [hmode, htime], by simp [hmode, hclocks], by simp [hmode], by simp [hmode],
    by simp [hmode], hconfig⟩
  lists := hlists
  stopped _ := hnone
  choice hc := absurd hchoice hc
  draining hd := by simp [hmode] at hd

/-- A part whose round clock runs: RUNNING, QUIET or DRAINING (R82, R154). -/
theorem regular_clocked {t : State} (hmode : t.mod.mode = .running ∨ t.mod.mode = .quiet ∨ t.mod.mode = .draining)
    (hvalid : t.mod.configValid = true) (hconfig : t.mod.config.inRanges = true) (htime : t.rck.timeRunning = true)
    (hclocks : t.rck.clocksRunning = true) (hrunning : t.mod.mode = .running → t.mod.causes = .empty)
    (hquiet : t.mod.mode = .quiet → t.mod.causes ≠ .empty) (hlists : t.ord.Sound t.mod.config)
    (hdraining : t.mod.mode = .draining → t.ord.outstanding ≠ []) (hchoice : t.sel.choice = none) : t.Regular where
  modes := by
    refine ⟨?_, ?_, iff_of_true hclocks hmode, ?_, hrunning, hquiet, hconfig⟩ <;>
      rcases hmode with hm | hm | hm <;> simp [hm, hvalid, htime]
  lists := hlists
  stopped hs := by rcases hmode with hm | hm | hm <;> simp [hm] at hs
  choice hc := absurd hchoice hc
  draining := hdraining

@[simp] theorem setMode_mode (s : State) (m : Mode) : (s.setMode m).mod.mode = m := by
  unfold State.setMode
  split
  · assumption
  · rfl

@[simp] theorem quietSet_configValid (m : Mod) (q : QuietCauses) : (m.quietSet q).configValid = m.configValid := by
  unfold Mod.quietSet
  split <;> rfl

@[simp] theorem quietSet_causes (m : Mod) (q : QuietCauses) : (m.quietSet q).causes = q := by
  unfold Mod.quietSet
  split
  · exact (‹q = m.causes›).symm
  · rfl

namespace State.Orderly
variable {s : State} (h : s.Orderly)
include h

theorem configValid (hm : s.mod.mode ≠ .halted) : s.mod.configValid = true := by
  simpa using mt h.modes.halted.mpr hm

theorem quarantine_le : s.ord.quarantine.length ≤ 8 :=
  h.lists.quarantineLength

/-- The part enters READY with no order outstanding (R165, R166). -/
theorem enterReady (hm : s.mod.mode ≠ .halted) (hnone : s.ord.outstanding = []) (hchoice : s.sel.choice = none) :
    s.enterReady.Regular := by
  refine regular_ready (by simp [State.enterReady]) ?_ ?_ ?_ ?_ ?_ ?_ ?_
  · simpa using h.configValid hm
  · simpa using h.modes.config
  · simpa using h.modes.time.mpr hm
  · simp [(enterReady_spec s).1]
  · simpa using h.lists
  · simpa using hnone
  · simpa using hchoice

/-- An empty outstanding list is reported, and a drain ends (R165). -/
theorem reportEmpty : s.reportEmpty.Regular := by
  unfold State.reportEmpty
  split
  · rename_i hd
    refine h.enterReady (by simp [hd.1]) hd.2 (by_contra fun hc => ?_)
    simpa [hd.1] using (h.choice hc).1
  · rename_i hd
    exact ⟨h, fun hm hnone => hd ⟨hm, hnone⟩⟩

/-- A run makes a choice in RUNNING alone, and while the window has room (R104). -/
theorem selectionRun : s.selectionRun.Orderly := by
  by_cases ho : s.selectionOpen = true
  · simp only [State.selectionOpen, Bool.and_eq_true, beq_iff_eq, decide_eq_true_eq] at ho
    exact ⟨h.modes.congr (by simp), by simpa using h.lists, by simpa using h.stopped, fun _ => by simpa using ho⟩
  · have he : s.selectionRun = s := by simp [State.selectionRun, ho]
    rw [he]
    exact h

/-- A cause that comes or goes moves the mode between RUNNING and QUIET alone (R151, R154). -/
theorem quietSet_mode (q : QuietCauses) : (s.mod.quietSet q).mode =
    if s.mod.mode = .running ∨ s.mod.mode = .quiet then (if q = .empty then .running else .quiet) else s.mod.mode := by
  cases hm : s.mod.mode with
  | running =>
    have hnone := h.modes.runningCauses hm
    by_cases he : q = .empty <;> simp [Mod.quietSet, hm, hnone, he]
  | quiet =>
    have hsome := h.modes.quietCauses hm
    by_cases he : q = .empty
    · simp [Mod.quietSet, hm, he, hsome.symm]
    · unfold Mod.quietSet
      split <;> simp [hm, he]
  | halted | ready | draining =>
    unfold Mod.quietSet
    split <;> simp [hm]

/-- The quiet-cause set changes, in any mode but HALTED (R151, R154). -/
theorem quietSet (hm : s.mod.mode ≠ .halted) (hc : s.sel.choice = none) (q : QuietCauses) :
    ({ s with mod := s.mod.quietSet q } : State).Orderly := by
  have hmode := h.quietSet_mode q
  have htime := h.modes.time.mpr hm
  have hvalid := h.configValid hm
  by_cases hr : s.mod.mode = .running ∨ s.mod.mode = .quiet
  · rw [if_pos hr] at hmode
    have hclocks : s.rck.clocksRunning = true := h.modes.clocks.mpr (by tauto)
    refine (regular_clocked (t := { s with mod := s.mod.quietSet q }) ?_ (by simpa using hvalid)
      (by simpa using h.modes.config) htime hclocks ?_ ?_ (by simpa using h.lists) ?_ hc).toOrderly <;>
      simp only [hmode, quietSet_causes] <;> by_cases he : q = .empty <;> simp [he]
  · rw [if_neg hr] at hmode
    obtain ⟨hhalted, htimeRunning, hclocks, -, -, -, hconfig⟩ := h.modes
    push Not at hr
    refine ⟨⟨?_, ?_, ?_, ?_, ?_, ?_, ?_⟩, ?_, ?_, fun hsome => absurd hc hsome⟩ <;>
      simp only [hmode, quietSet_config, quietSet_configValid]
    · exact hhalted
    · exact htimeRunning
    · exact hclocks
    · exact fun e => absurd e hm
    · exact fun e => absurd e hr.1
    · exact fun e => absurd e hr.2
    · exact hconfig
    · exact h.lists
    · exact h.stopped

theorem setCauses (hm : s.mod.mode ≠ .halted) (hc : s.sel.choice = none) (q : QuietCauses) : (s.setCauses q).Orderly := by
  have hset := h.quietSet hm hc q
  rw [setCauses_eq]
  split
  · exact hset.selectionRun
  · exact hset

/-- A timeout asks for LINK at the loss limit (R133, R152). -/
theorem requestLink (hm : s.mod.mode ≠ .halted) (hc : s.sel.choice = none) : s.requestLink.Orderly := by
  unfold State.requestLink State.raiseLink
  split
  · split
    · exact h
    · have hcount : (s.updMgd fun g => { g with linkRaises := satAdd g.linkRaises 1 }).Orderly := h.congr (by simp)
      exact hcount.setCauses hm hc _
  · exact h

/-! ## Conclusions (R125, R131) -/

/-- Orders go, and the modes stay. -/
theorem concluded {t : State} (hmod : t.mod = s.mod) (htime : t.rck.timeRunning = s.rck.timeRunning)
    (hclocks : t.rck.clocksRunning = s.rck.clocksRunning) (hchoice : t.sel.choice = s.sel.choice)
    (hsub : t.ord.outstanding.Sublist s.ord.outstanding) (hlists : t.ord.Sound s.mod.config) : t.Orderly := by
  refine ⟨h.modes.congr (by simp [hmod, htime, hclocks]), by rwa [hmod], fun hm => ?_, fun hc => ?_⟩
  · rw [hmod] at hm
    exact List.sublist_nil.mp (h.stopped hm ▸ hsub)
  · rw [hchoice] at hc
    rw [hmod]
    exact ⟨(h.choice hc).1, hsub.length_le.trans_lt (h.choice hc).2⟩

theorem acceptOutcome (o : Order) (x : Outcome) : (s.acceptOutcome o x).Orderly := by
  have hsub : (s.acceptOutcome o x).ord.outstanding.Sublist s.ord.outstanding := by
    rw [acceptOutcome_outstanding_eq]
    exact List.filter_sublist
  exact h.concluded (by simp) (by simp) (by simp) (by simp) hsub (h.lists.shrink hsub (by simp))

theorem loseOrder {o : Order} (ho : o ∈ s.ord.outstanding) : (s.loseOrder o).Orderly := by
  obtain ⟨hos, hq⟩ := loseOrder_lists h.quarantine_le o
  have hsub : (s.loseOrder o).ord.outstanding.Sublist s.ord.outstanding := hos ▸ List.filter_sublist
  refine h.concluded (by simp) (by simp) (by simp) (by simp) hsub ?_
  refine h.lists.retire hsub (List.singleton_sublist.mpr (List.mem_map_of_mem ho)) (fun p hp => ?_) hq
  rw [hos] at hp
  simpa using (List.mem_filter.mp hp).2

/-- Every order goes into quarantine: what an ABORT leaves of the two lists (R137). -/
theorem cancelOrders_lists : s.cancelOrders.ord.Sound s.mod.config := by
  obtain ⟨hnone, hq, -⟩ := cancelOrders_ord h.quarantine_le
  exact h.lists.retire (by simp [hnone]) (List.Sublist.refl _) (by simp [hnone]) (by simpa using hq)

/-- What a soft reset leaves of the two lists (R138). -/
theorem softReset_lists : s.softReset.ord.Sound s.mod.config := by
  obtain ⟨hnone, -, -, -, hq, -⟩ := softReset_ord s
  have hclear : ({ s.ord with quarantine := [] } : Ord).Sound s.mod.config :=
    h.lists.shrink (List.Sublist.refl _) (List.nil_sublist _)
  exact hclear.retire (by simp [hnone]) (List.Sublist.refl _) (by simp [hnone]) (by simpa using hq)

end State.Orderly

/-! ## The operations that the part's own rules cover whole -/

namespace State.Regular
variable {s : State} (h : s.Regular)
include h

theorem selectionRun : s.selectionRun.Regular :=
  ⟨h.toOrderly.selectionRun, by simpa using h.draining⟩

theorem setCauses (hm : s.mod.mode ≠ .halted) (hc : s.sel.choice = none) (q : QuietCauses) :
    (s.setCauses q).Regular := by
  refine ⟨h.toOrderly.setCauses hm hc q, fun hd => ?_⟩
  have hmode : (s.setCauses q).mod.mode = (s.mod.quietSet q).mode := by
    rw [setCauses_eq]
    split <;> simp
  rw [hmode, h.quietSet_mode q] at hd
  split at hd
  · split at hd <;> cases hd
  · simpa using h.draining hd

/-- An issue in RUNNING, while the window has room (R104, R119, R122). -/
theorem issueOrder {c : Choice} {fs : List Frame} (hm : s.mod.mode = .running)
    (hroom : s.ord.outstanding.length < s.mod.config.window) (hc : s.sel.choice = none)
    (hfs : 1 ≤ fs.length ∧ fs.length ≤ 16) : (s.issueOrder c fs).Regular := by
  have hrec := issueOrder_record s c fs
  have hfew : s.ord.outstanding.length + s.ord.quarantine.length < 256 := by
    have hfour := window_le h.modes.config
    have height := h.quarantine_le
    omega
  have hsound : (s.orderRecord c fs (estimate s.mod.config (s.orderRate c.station) fs)
      (s.station c.station).cohort).Sound s.mod.config := ⟨hfs, min_le_right _ _, rfl⟩
  have hlists := h.lists.issue (e := (s.issueOrder c fs).ord) hrec (by simp) hroom (allocate_untaken s.ord hfew) hsound
  exact ⟨⟨h.modes.congr (by simp), by simpa using hlists, by simp [hm], by simp [hc]⟩, by simp [hm]⟩

/-- A build takes the choice, and a run follows it (R105, R106, R121). -/
theorem buildOrder : s.buildOrder.Regular := by
  unfold State.buildOrder
  split
  · exact h
  · rename_i c hc
    obtain ⟨hrun, hroom⟩ := h.choice (by simp [hc])
    have htaken : (s.updSel fun e => { e with choice := none }).Regular := h.congr (by simp)
    refine State.Regular.selectionRun ?_
    unfold State.buildChoice
    split
    · exact htaken.congr (by simp)
    · rename_i hne
      refine htaken.issueOrder hrun hroom rfl (aggregate_frames h.modes.config _ _ fun he => hne ?_)
      simp only [he]
      rfl

theorem buildOrders (n : Nat) : (State.buildOrders n s).Regular := by
  induction n generalizing s with
  | zero => exact h
  | succ n ih =>
    unfold State.buildOrders
    split
    · exact ih h.buildOrder
    · exact h

theorem settle : s.settle.Regular :=
  (h.buildOrders 8).congr (by simp [State.settle])

end State.Regular
end Sys2Proof.Machine
end

section
/-!
StepKeepsModesAndOrders: the host's commands, each decided by a part whose choice has been followed through (R106, R177).
-/
namespace Sys2Proof.Machine

/-! ## The commands of MOD (R151, R160 to R167) -/

@[simp] theorem boundaryZero_clocks (s : State) : s.boundaryZero.rck.clocksRunning = true := by
  simp [State.boundaryZero]

namespace State.Regular
variable {s : State} (h : s.Regular) (b : List Byte)
include h

/-- The CONFIGURE that leaves HALTED (R68, R161). -/
theorem leaveHalted (hc : s.sel.choice = none) (hm : s.mod.mode = .halted) {cfg : Configuration}
    (hcfg : cfg.inRanges = true) : (s.writeConfiguration cfg).leaveHalted.Regular := by
  have hnone := h.stopped (.inl hm)
  have hclocks : s.rck.clocksRunning = false := by
    rw [← Bool.not_eq_true, h.modes.clocks]
    simp [hm]
  rw [leaveHalted_eq (by simpa using hm)]
  exact regular_ready rfl rfl hcfg rfl hclocks (h.lists.of_no_orders hnone cfg) hnone hc

/-- A CONFIGURE in READY (R160, R161). -/
theorem reclampStations (hc : s.sel.choice = none) (hm : s.mod.mode = .ready) {cfg : Configuration}
    (hcfg : cfg.inRanges = true) : (s.writeConfiguration cfg).reclampStations.Regular := by
  have hnone := h.stopped (.inr hm)
  have hclocks : s.rck.clocksRunning = false := by
    rw [← Bool.not_eq_true, h.modes.clocks]
    simp [hm]
  refine regular_ready hm rfl hcfg (h.modes.time.mpr (by simp [hm])) hclocks (h.lists.of_no_orders hnone cfg) hnone hc

theorem decideConfigure (hc : s.sel.choice = none) : (decideConfigure s b).1.Regular := by
  have hrange : ¬ (!(parseConfigure b).useDefaults && !(parseConfigure b).valid) = true →
      (parseConfigure b).toConfiguration.inRanges = true := fun hv => toConfiguration_inRanges (by
    cases hu : (parseConfigure b).useDefaults <;> simp_all)
  unfold Machine.decideConfigure
  dsimp only
  split
  iterate 3 exact h
  · rename_i hm
    split
    · exact h
    · split
      · exact h
      · simpa only [accept, if_pos hm] using h.leaveHalted hc hm (hrange ‹_›)
  · rename_i hm
    split
    · exact h
    · split
      · exact h
      · simpa only [accept, hm, reduceCtorEq, if_false] using h.reclampStations hc hm (hrange ‹_›)

/-- START sets the clocks going (R82, R163). -/
theorem decideStart (hc : s.sel.choice = none) : (decideStart s b).1.Regular := by
  unfold Machine.decideStart
  split
  · rename_i hm
    have hnone := h.stopped (.inr hm)
    have hvalid := h.configValid (by simp [hm])
    have htime := h.modes.time.mpr (by simp [hm])
    refine State.Regular.selectionRun (regular_clocked ?_ ?_ ?_ ?_ ?_ ?_ ?_ ?_ ?_ ?_) <;>
      simp only [setMode_mode, setMode_keeps, boundaryZero_keeps, boundaryZero_clocks, updMgd_mod, updMgd_ord,
        updMgd_rck, updMgd_sel, quietCauses_isEmpty_iff]
    · split <;> simp
    · exact hvalid
    · exact h.modes.config
    · exact htime
    · split <;> simp [*]
    · split <;> simp [*]
    · exact h.lists
    · split <;> simp
    · exact hc
  all_goals exact h

theorem decideStop (hc : s.sel.choice = none) : (decideStop s b).1.Regular := by
  have hstop : s.mod.mode = .running ∨ s.mod.mode = .quiet →
      (if s.ord.outstanding.isEmpty = true then s.enterReady else s.setMode .draining).Regular := by
    intro hm
    have hhalted : s.mod.mode ≠ .halted := by rcases hm with hm | hm <;> simp [hm]
    split
    · rename_i hnone
      exact h.toOrderly.enterReady hhalted (List.isEmpty_iff.mp hnone) hc
    · rename_i hsome
      have hclocks : s.rck.clocksRunning = true := h.modes.clocks.mpr (by tauto)
      refine regular_clocked ?_ ?_ ?_ ?_ ?_ ?_ ?_ ?_ ?_ ?_ <;> simp only [setMode_mode, setMode_keeps]
      · simp
      · exact h.configValid hhalted
      · exact h.modes.config
      · exact h.modes.time.mpr hhalted
      · exact hclocks
      · simp
      · simp
      · exact h.lists
      · simpa using hsome
      · exact hc
  unfold Machine.decideStop
  split
  · exact hstop (.inl ‹_›)
  · exact hstop (.inr ‹_›)
  all_goals exact h

theorem decideAbort (hc : s.sel.choice = none) : (decideAbort s b).1.Regular := by
  have habort : s.mod.mode ≠ .halted → s.cancelOrders.enterReady.Regular := fun hm => by
    have hnone := (cancelOrders_ord h.quarantine_le).1
    have hgone : s.cancelOrders.Orderly := h.toOrderly.concluded (by simp) (by simp) (by simp) (by simp) (by simp [hnone])
      h.cancelOrders_lists
    exact hgone.enterReady (by simpa using hm) hnone (by simpa using hc)
  unfold Machine.decideAbort
  split
  iterate 3 exact habort (by simp [*])
  all_goals exact h

theorem decideReset (hc : s.sel.choice = none) : (decideReset s b).1.Regular := by
  have hreset : s.mod.mode ≠ .halted → s.softReset.Regular := fun hm => by
    obtain ⟨hmod, -, -, hsel, -, hrck, -⟩ := softReset_blocks s
    refine regular_ready ?_ ?_ ?_ ?_ ?_ ?_ (softReset_ord s).1 ?_
    all_goals simp only [hmod, hrck, hsel]
    · exact h.configValid hm
    · exact h.modes.config
    · exact h.modes.time.mpr hm
    · exact h.softReset_lists
    · exact hc
  unfold Machine.decideReset
  split
  · exact h
  all_goals
    dsimp only [accept]
    exact hreset (by simp [*])

theorem decideQuiet (hc : s.sel.choice = none) : (decideQuiet s b).1.Regular := by
  unfold Machine.decideQuiet
  split
  · exact h
  all_goals exact h.setCauses (by simp [*]) hc _

theorem decideResume (hc : s.sel.choice = none) : (decideResume s b).1.Regular := by
  unfold Machine.decideResume
  split
  · exact h
  all_goals exact h.setCauses (by simp [*]) hc _

/-! ## The commands of STT, FPL and COH -/

theorem decideQuery : (decideQuery s b).1.Regular := by
  unfold Machine.decideQuery
  dsimp only
  split
  · exact h
  split
  · exact h
  split <;> exact h

theorem decideAdmit : (decideAdmit s b).1.Regular := by
  unfold Machine.decideAdmit
  dsimp only
  repeat' split
  all_goals exact h.congr (by simp [accept, refuse])

theorem decideRelease : (decideRelease s b).1.Regular := by
  unfold Machine.decideRelease
  dsimp only
  repeat' split
  all_goals exact h.congr (by simp [accept, refuse])

theorem decideSetWeight : (decideSetWeight s b).1.Regular := by
  unfold Machine.decideSetWeight
  dsimp only
  repeat' split
  all_goals exact h.congr (by simp [accept, refuse])

theorem applyHold (i : Nat) (v : Bool) : (s.applyHold i v).Regular := by
  have hheld : (s.updStation i fun x => { x with held := v, stagedHold := none }).Regular := h.congr (by simp)
  unfold State.applyHold
  dsimp only
  split
  · exact hheld.selectionRun
  · exact hheld

theorem decideHold : (decideHold s b).1.Regular := by
  unfold Machine.decideHold
  dsimp only
  split
  · exact h
  split
  · exact h
  split
  · exact h
  dsimp only [accept]
  split
  · exact h.applyHold _ _
  · exact h.congr (by simp)

theorem decideEnqueue : (decideEnqueue s b).1.Regular := by
  have hoffer : (s.offerFrames (parseEnqueue b)).1.Regular := h.congr (by simp)
  unfold Machine.decideEnqueue
  split
  · exact h
  split
  · exact h
  dsimp only
  split
  · exact hoffer.selectionRun
  · exact hoffer

theorem decideFlush : (decideFlush s b).1.Regular := by
  unfold Machine.decideFlush
  dsimp only
  repeat' split
  all_goals exact h.congr (by simp [refuse])

theorem decideSetCohort : (decideSetCohort s b).1.Regular := by
  unfold Machine.decideSetCohort
  dsimp only
  repeat' split
  all_goals exact h.congr (by simp [accept, refuse])

/-- Every owner's decision. -/
theorem decision (hc : s.sel.choice = none) (c : Command) : (c.decision s b).1.Regular := by
  cases c with
  | configure => exact h.decideConfigure b hc
  | start => exact h.decideStart b hc
  | stop => exact h.decideStop b hc
  | abort => exact h.decideAbort b hc
  | reset => exact h.decideReset b hc
  | quiet => exact h.decideQuiet b hc
  | resume => exact h.decideResume b hc
  | status => exact h
  | admitStation => exact h.decideAdmit b
  | release => exact h.decideRelease b
  | setWeight => exact h.decideSetWeight b
  | hold => exact h.decideHold b
  | enqueue => exact h.decideEnqueue b
  | flush => exact h.decideFlush b
  | setCohort => exact h.decideSetCohort b
  | query => exact h.decideQuery b

end State.Regular
end Sys2Proof.Machine
end

section
/-!
StepKeepsModesAndOrders: the records from the MAC, the deadlines and the links' own rows, and with them every step.
-/
namespace Sys2Proof.Machine

/-! ## The records that the RLI delivers, and the deadlines -/

namespace State.Regular
variable {s : State} (h : s.Regular)
include h

/-- Orders stand in no HALTED part (R158). -/
theorem mode_of_order {o : Order} (ho : o ∈ s.ord.outstanding) : s.mod.mode ≠ .halted := fun hm => by
  rw [h.stopped (.inl hm)] at ho
  cases ho

/-- An outcome concludes its order, or takes its id from quarantine, or is counted alone (R124, R135, R136). -/
theorem takeOutcome (x : Outcome) : (s.takeOutcome x).Regular := by
  unfold State.takeOutcome
  split
  · exact (h.toOrderly.acceptOutcome _ x).reportEmpty.selectionRun
  · split
    · have hlists : (s.lateOutcome x.id).ord.Sound s.mod.config :=
        h.lists.shrink (by simp) (List.erase_sublist)
      exact ⟨h.toOrderly.concluded (by simp) (by simp) (by simp) (by simp) (by simp) hlists, by simpa using h.draining⟩
    · exact h.congr (by simp)

theorem takeReport (pm : Nat) : (s.takeReport pm).Regular := by
  unfold State.takeReport
  split <;> exact h.congr (by simp)

theorem takeAlert (hm : s.mod.mode ≠ .halted) (hc : s.sel.choice = none) (c : AlertCause) : (s.takeAlert c).Regular := by
  have hfill : (s.fillCapture c).Regular := h.congr (by simp)
  have hset := hfill.setCauses (by simpa using hm) (by simpa using hc) { (s.fillCapture c).mod.causes with medium := true }
  exact hset.congr (by simp [State.takeAlert])

theorem takeClear (hm : s.mod.mode ≠ .halted) (hc : s.sel.choice = none) : s.takeClear.Regular :=
  (h.setCauses hm hc { s.mod.causes with medium := false }).congr (by simp [State.takeClear])

theorem takeMedium {f : State → State} (hf : s.mod.mode ≠ .halted → (f s).Regular) : (State.takeMedium f s).Regular := by
  unfold State.takeMedium
  split
  · exact h.congr (by simp)
  · exact hf ‹_›

theorem takeDoze (i : Nat) : (s.takeDoze i).Regular := by
  unfold State.takeDoze
  split <;> exact h.congr (by simp)

theorem takeWake (i : Nat) : (s.takeWake i).Regular := by
  have hwoken : (s.endDoze i).Regular := h.congr (by simp)
  unfold State.takeWake
  split
  · exact h.congr (by simp)
  · exact hwoken.selectionRun
  · exact h

theorem takePoll (i : Nat) : (s.takePoll i).Regular := by
  have hplaced : (s.placePoll i).Regular := h.congr (by simp)
  unfold State.takePoll State.grantPoll
  split
  · exact h.congr (by simp)
  · split
    · exact h.congr (by simp)
    · exact hplaced.selectionRun
  · exact h

theorem expireDue : s.expireDue.Regular := by
  unfold State.expireDue
  split
  · exact h
  · exact h.congr (by simp)

theorem takeExpiry : s.takeExpiry.Regular := by
  unfold State.takeExpiry
  split
  · exact h
  · split
    · exact h.congr (by simp)
    · exact h.settle.expireDue

/-- An order that is lost leaves a mode that may have turned QUIET and a drain that may have ended (R131, R133, R165). -/
theorem timeOutOrder {o : Order} (ho : o ∈ s.ord.outstanding) (hc : s.sel.choice = none) : (s.timeOutOrder o).Regular := by
  have hlost := h.toOrderly.loseOrder ho
  have hasked := hlost.requestLink (by simpa using h.mode_of_order ho) (by simpa using hc)
  exact hasked.reportEmpty.selectionRun

theorem takeTimeout : s.takeTimeout.Regular := by
  by_cases hd : s.timeoutDue = none
  · unfold State.takeTimeout
    rw [hd]
    exact h
  · rw [takeTimeout_settle hd]
    unfold State.takeTimeout
    split
    · exact h.settle
    · rename_i o ho
      rw [settle_settle]
      exact h.settle.timeOutOrder (List.mem_of_find?_eq_some ho) rfl

theorem takeRoundBoundary : s.takeRoundBoundary.Regular := by
  unfold State.takeRoundBoundary
  split
  · unfold State.makeRoundBoundary
    dsimp only
    refine State.Regular.selectionRun ?_
    split <;> exact h.settle.congr (by simp)
  · exact h

theorem takePromptBoundary : s.takePromptBoundary.Regular := by
  unfold State.takePromptBoundary
  split
  · unfold State.makePromptBoundary
    exact State.Regular.selectionRun (h.settle.congr (by simp))
  · exact h

/-! ## Dispatch and delivery -/

theorem dispatch (c : Command) : (s.dispatch c c.decision).Regular := by
  have hpop : s.settle.popInbound.Regular := h.settle.congr (by simp [State.popInbound])
  unfold State.dispatch
  split
  · exact h
  · rename_i r _
    dsimp only
    split
    · exact (hpop.decision r.body rfl c).congr (by simp)
    · exact hpop.congr (by simp)

theorem rejectUnknown : s.rejectUnknown.Regular := by
  unfold State.rejectUnknown
  split
  · exact h
  · exact h.settle.congr (by simp [State.popInbound])

/-- A delivery: its owner takes the record from a part whose choice has been followed through (R106, R186). -/
theorem deliver {take : MacRecord → Option (State → State)}
    (ht : ∀ (r : MacRecord) (f : State → State) (u : State), take r = some f → u.Regular → u.sel.choice = none →
      (f u).Regular) : (s.deliver take).Regular := by
  unfold State.deliver
  split
  · exact h
  · split
    · exact h
    · exact ht _ _ _ ‹_› (h.settle.congr (by simp)) rfl

end State.Regular

/-! ## What the links do alone: nothing that the two invariants read -/

theorem takeDirection_rules (s : State) (b : Byte) : s.SameRules (s.takeDirection b) := by
  unfold State.takeDirection
  split <;> simp

theorem endWrite_rules (s : State) (b : List Byte) : s.SameRules (s.endWrite b) := by
  unfold State.endWrite
  split <;> simp [State.returnFiller]

theorem endRead_rules (s : State) (n : Nat) : s.SameRules (s.endRead n) := by
  unfold State.endRead
  split <;> simp [State.returnFiller]

theorem endIdle_rules (s : State) (n : Nat) : s.SameRules (s.endIdle n) := by
  unfold State.endIdle
  split <;> simp [State.returnFiller]

theorem formTokenReturn_rules (s : State) : s.SameRules s.formTokenReturn := by
  unfold State.formTokenReturn
  split <;> simp

theorem formAlert_rules (s : State) : s.SameRules s.formAlert := by
  unfold State.formAlert
  split <;> simp

theorem endPulse_rules (s : State) : s.SameRules s.endPulse := by
  unfold State.endPulse
  split <;> simp

theorem endRecord_rules (s : State) (b : List Byte) (c : Bool) : s.SameRules (s.endRecord b c) := by
  unfold State.endRecord
  split <;> simp

theorem startRecord_rules (s : State) (b : List Byte) : s.SameRules (s.startRecord b) := by
  have hend := endRecord_rules s b false
  unfold State.startRecord
  dsimp only
  split <;> exact hend

theorem beginSending_rules (s : State) (r : Bool) : s.SameRules (s.beginSending r) := by
  unfold State.beginSending
  split <;> simp

theorem finishSending_rules (s : State) : s.SameRules s.finishSending := by
  unfold State.finishSending
  split
  · simp
  · split <;> simp

theorem giveOrders_rules (s : State) (n : Nat) : s.SameRules (s.giveOrders n) := by
  simp [giveOrders_unsent]

theorem expireBlanking_rules (s : State) : s.SameRules s.expireBlanking := by
  unfold State.expireBlanking
  split <;> simp

/-! ## Every row of the table -/

theorem whenReleased_next {s t : State} {f : State → State} (ht : s.whenReleased f = .next t) : t = s ∨ t = f s := by
  unfold State.whenReleased at ht
  injection ht with ht
  subst ht
  split <;> simp

theorem whenSelected_next {s t : State} {n : Nat} {f : State → State} (ht : s.whenSelected n f = .next t) :
    t = s.returnFiller n ∨ t = f s := by
  unfold State.whenSelected at ht
  injection ht with ht
  subst ht
  split <;> simp

namespace State.Regular
variable {s t : State} (h : s.Regular)
include h

theorem whenReleased {f : State → State} (ht : s.whenReleased f = .next t) (hf : (f s).Regular) : t.Regular := by
  obtain rfl | rfl := whenReleased_next ht
  · exact h
  · exact hf

/-- An event of a transaction touches CLI alone (R173 to R175). -/
theorem whenSelected {n : Nat} {f : State → State} (ht : s.whenSelected n f = .next t) (hf : s.SameRules (f s)) :
    t.Regular := by
  obtain rfl | rfl := whenSelected_next ht
  · exact h.congr (by simp [State.returnFiller])
  · exact h.congr hf

theorem link {f : State → State} (ht : s.whenReleased f = .next t) (hf : s.SameRules (f s)) : t.Regular :=
  h.whenReleased ht (h.congr hf)

theorem command (c : Command) (ht : Machine.exec c.event s = .next t) : t.Regular := by
  rw [exec_event] at ht
  refine h.whenReleased ht ?_
  split
  · exact (h.dispatch c).congr (by simp)
  · exact h.dispatch c

theorem exec {i : Instr} (ht : exec i s = .next t) : t.Regular := by
  cases i with
  | writeTransaction b => exact h.whenSelected (f := fun s => s.endWrite b) ht (endWrite_rules s b)
  | readTransaction n => exact h.whenSelected (f := fun s => s.endRead n) ht (endRead_rules s n)
  | idleTransaction n => exact h.whenSelected (f := fun s => s.endIdle n) ht (endIdle_rules s n)
  | directionByte b => exact h.whenSelected (f := fun s => s.takeDirection b) ht (takeDirection_rules s b)
  | unknownType => exact h.whenReleased ht h.rejectUnknown
  | configure => exact h.command .configure ht
  | start => exact h.command .start ht
  | stop => exact h.command .stop ht
  | abort => exact h.command .abort ht
  | reset => exact h.command .reset ht
  | quiet => exact h.command .quiet ht
  | resume => exact h.command .resume ht
  | status => exact h.command .status ht
  | admitStation => exact h.command .admitStation ht
  | release => exact h.command .release ht
  | setWeight => exact h.command .setWeight ht
  | hold => exact h.command .hold ht
  | enqueue => exact h.command .enqueue ht
  | flush => exact h.command .flush ht
  | setCohort => exact h.command .setCohort ht
  | query => exact h.command .query ht
  | txOutcome =>
    unfold Machine.exec execTxOutcome at ht
    refine h.whenReleased ht (h.deliver fun r f u hr hu _ => ?_)
    cases r <;> cases hr
    exact hu.takeOutcome _
  | mediumReport =>
    unfold Machine.exec execMediumReport at ht
    refine h.whenReleased ht (h.deliver fun r f u hr hu _ => ?_)
    cases r <;> cases hr
    exact hu.takeMedium fun _ => hu.takeReport _
  | mediumAlert =>
    unfold Machine.exec execMediumAlert at ht
    refine h.whenReleased ht (h.deliver fun r f u hr hu hc => ?_)
    cases r <;> cases hr
    exact hu.takeMedium fun hm => hu.takeAlert hm hc _
  | mediumClear =>
    unfold Machine.exec execMediumClear at ht
    refine h.whenReleased ht (h.deliver fun r f u hr hu hc => ?_)
    cases r <;> cases hr
    exact hu.takeMedium fun hm => hu.takeClear hm hc
  | doze =>
    unfold Machine.exec execDoze at ht
    refine h.whenReleased ht (h.deliver fun r f u hr hu _ => ?_)
    cases r <;> cases hr
    exact hu.takeDoze _
  | wake =>
    unfold Machine.exec execWake at ht
    refine h.whenReleased ht (h.deliver fun r f u hr hu _ => ?_)
    cases r <;> cases hr
    exact hu.takeWake _
  | poll =>
    unfold Machine.exec execPoll at ht
    refine h.whenReleased ht (h.deliver fun r f u hr hu _ => ?_)
    cases r <;> cases hr
    exact hu.takePoll _
  | frameExpiry => exact h.whenReleased ht h.takeExpiry
  | orderTimeout => exact h.whenReleased ht h.takeTimeout
  | roundBoundary => exact h.whenReleased ht h.takeRoundBoundary
  | promptBoundary => exact h.whenReleased ht h.takePromptBoundary
  | orderBuild => exact h.whenReleased ht h.buildOrder
  | pinReset =>
    cases ht
    exact ((regular_iff _).mpr ⟨pinResetValues_modeInv true, pinResetValues_orderInv true⟩).congr (by simp)
  | resetNRelease =>
    cases ht
    exact h.congr (by simp)
  | tokenReturn => exact h.link ht (formTokenReturn_rules s)
  | alert => exact h.link ht (formAlert_rules s)
  | attnPulse => exact h.link ht (endPulse_rules s)
  | recordStart cut => exact h.link (f := fun s => s.startRecord cut) ht (startRecord_rules s cut)
  | recordEnd framed => exact h.link (f := fun s => s.endRecord framed true) ht (endRecord_rules s framed true)
  | radioRecordSent => exact h.link ht (finishSending_rules s)
  | radioRecordBegin r => exact h.link (f := fun s => s.beginSending r) ht (beginSending_rules s r)
  | cancelAll => exact h.link ht (by simp)
  | linkNoteHanded => exact h.link (f := fun s => s.giveNotes 1) ht (by simp)
  | txOrderPlaced => exact h.link (f := fun s => s.giveOrders 1) ht (giveOrders_rules s 1)
  | blankingExpiry => exact h.link ht (expireBlanking_rules s)

end State.Regular

/-- Settles O55: the two invariants as one, Regular, which every row of the table and the passing of time keep. -/
theorem stepKeepsModesAndOrders : Obligations.StepKeepsModesAndOrders := by
  unfold Obligations.StepKeepsModesAndOrders
  intro s t hm ho hs
  have h : s.Regular := (regular_iff s).mpr ⟨hm, ho⟩
  rw [← regular_iff]
  unfold step at hs
  split at hs
  · rename_i rest _
    have hnext : { s with pending := rest }.Regular := h.congr (by simp)
    exact hnext.exec hs
  · split at hs
    · exact h.exec hs
    · injection hs with hs
      subst hs
      exact h.congr (by simp [State.tick])

end Sys2Proof.Machine
end

section
/-! START and the two boundaries 0 (R70, R73, R76, R163), and ROUND_BOUNDARY (R70, R72, R74, R79, R81). -/
namespace Sys2Proof.Machine

/-! ## What a boundary writes -/

theorem beginRound_rck (s : State) : s.beginRound.rck =
    { s.rck with figures := s.beginRound.rck.figures, promptUsed := 0 } := by
  simp [beginRound_eq, State.formFigures]

theorem beginRound_sel (s : State) : s.beginRound.sel = { s.sel with
    groupDue := true, groupAllot := s.beginRound.sel.groupAllot, groupBudget := s.beginRound.sel.groupBudget } := by
  simp [beginRound_eq, State.formFigures]

theorem beginPromptPeriod_sel (s : State) : s.beginPromptPeriod.sel = { s.sel with
    promptAllot := promptAllotment s.mod.config s.sampleFree
    promptBudget := (promptAllotment s.mod.config s.sampleFree : Nat) } := rfl

/-- A run is made in RUNNING alone (R104). -/
theorem selectionRun_of_not_running {s : State} (h : s.mod.mode ≠ .running) : s.selectionRun = s := by
  simp [State.selectionRun, State.selectionOpen, h]

/-! ## START -/

/-- The part as START sets the clocks, before boundary 0 forms the round (R70, R163). -/
def State.clocksSet (s : State) : State :=
  { s with
    mgd := { s.mgd with freeNow := s.mod.config.freeInitialPm }
    rck := { s.rck with
      clocksRunning := true, round := 0, lastRoundAt := s.rck.deviceTime
      nextRoundAt := deadlineAfter s.rck.deviceTime s.mod.config.roundUs
      promptPeriod := 0, nextPromptAt := deadlineAfter s.rck.deviceTime s.mod.config.promptPeriodUs, postscaler := 0 } }

/-- START as it is accepted, up to the run that follows it (R163). -/
def State.started (s : State) : State :=
  s.clocksSet.beginRound.beginPromptPeriod.setMode (if s.mod.causes.isEmpty then .running else .quiet)

theorem decideStart_ready {s : State} (hm : s.mod.mode = .ready) (b : List Byte) :
    decideStart s b = accept s.started.selectionRun := by
  unfold decideStart
  rw [hm]
  rfl

theorem started_mod {s : State} (hm : s.mod.mode = .ready) : s.started.mod =
    { s.mod with mode := if s.mod.causes = .empty then .running else .quiet, pendingAlert := true } := by
  have hmod : s.clocksSet.mod = s.mod := rfl
  unfold State.started State.setMode
  by_cases hq : s.mod.causes = .empty
  · have he : QuietCauses.empty.isEmpty = true := rfl
    simp [hq, he, hm, hmod, State.setPendingAlert]
  · have he : ¬ s.mod.causes.isEmpty = true := mt (quietCauses_isEmpty_iff _).mp hq
    simp [hq, he, hm, hmod, State.setPendingAlert]

theorem started_rck (s : State) : s.started.rck =
    { s.clocksSet.rck with figures := s.started.rck.figures, promptUsed := 0 } := by
  have h : s.started.rck = s.clocksSet.beginRound.rck := by simp [State.started]
  rw [h, beginRound_rck]

theorem started_sel (s : State) : s.started.sel = { s.sel with
    groupDue := true, groupAllot := s.started.sel.groupAllot, groupBudget := s.started.sel.groupBudget
    promptAllot := promptAllotment s.mod.config (freePm s.mod.config s.mod.config.freeInitialPm)
    promptBudget := (promptAllotment s.mod.config (freePm s.mod.config s.mod.config.freeInitialPm) : Nat) } := by
  have h : s.started.sel = s.clocksSet.beginRound.beginPromptPeriod.sel := by simp [State.started]
  have hfree : s.clocksSet.beginRound.sampleFree = freePm s.mod.config s.mod.config.freeInitialPm := by
    simp [State.sampleFree, State.clocksSet]
  have hcfg : s.clocksSet.beginRound.mod.config = s.mod.config := by simp [State.clocksSet]
  rw [h, beginPromptPeriod_sel, beginRound_sel, hfree, hcfg]
  rfl

/-- Boundary 0 forms the round from free_initial_pm (R73, R163). -/
theorem started_begun (s : State) : RoundBegun s s.started s.mod.config.freeInitialPm :=
  (beginRound_begun s.clocksSet).congr rfl rfl rfl rfl (by simp [State.started]) (by simp [State.started])
    (by simp [State.started]) (by simp [State.started]) (by simp [State.started]) (by simp [State.started])
    (by simp [State.started])

/-- Settles O14: the accepted START, the round and the prompt period it begins, and the reply ahead of the run. -/
theorem startMakesBoundaryZero : Obligations.StartMakesBoundaryZero := by
  unfold Obligations.StartMakesBoundaryZero
  rintro s r rest _ _ h hm rfl rfl
  have hready : (s.taken rest).mod.mode = .ready := hm
  have hmod := started_mod hready
  have hrck := started_rck (s.taken rest)
  have hreply : (s.taken rest).started.pushOut (.reply r.typ r.tag (.code .ok))
      = { (s.taken rest).started with cli := s.answered r rest (.code .ok) } := by
    refine pushOut_answered ?_ ?_ ?_ _
    · simp [State.started, State.clocksSet]
    · rw [hrck]
      rfl
    · simp [Mod.attnOperation, hmod]
  refine ⟨{ (s.taken rest).started with cli := s.answered r rest (.code .ok) }, ?_, rfl, hmod, ?_, ?_, hrck,
    started_sel (s.taken rest), fun hq => selectionRun_of_not_running ?_, ?_, ?_, ?_, ?_, ?_⟩
  · rw [← hreply, ← selectionRun_pushOut]
    exact exec_of_decision (c := .start) h (by decide) (decideStart_ready hready r.body)
  · simp [State.started, State.clocksSet]
  · exact (started_begun (s.taken rest)).congr rfl rfl rfl rfl rfl rfl rfl rfl rfl rfl rfl
  · simp [hmod, hq]
  all_goals simp [State.started, State.clocksSet]

/-! ## ROUND_BOUNDARY -/

/-- The part with the ended round closed and the round number advanced, before the new round is formed (R72). -/
def State.roundEnded (s : State) : State :=
  s.closeRound.advanceRound

/-- The part behind a round boundary, up to the run that follows it (R72, R74). -/
def State.roundMade (s : State) : State :=
  if s.mod.config.promptSync then (s.roundEnded.beginRound.advancePrompt s.rck.nextRoundAt).beginPromptPeriod
  else s.roundEnded.beginRound

theorem makeRoundBoundary_eq (s : State) : s.makeRoundBoundary = s.roundMade.selectionRun := rfl

/-- The clock of the round advances from its scheduled time (R70, R72 step 2). -/
theorem roundEnded_rck (s : State) : s.roundEnded.rck.round = s.rck.round + 1
    ∧ s.roundEnded.rck.lastRoundAt = s.rck.nextRoundAt
    ∧ s.roundEnded.rck.nextRoundAt = s.rck.nextRoundAt + BitVec.ofNat 32 s.mod.config.roundUs := by
  simp [State.roundEnded, State.advanceRound, deadlineAfter]

/-- A prompt period that begins changes neither the round's records nor its figures. -/
theorem roundMade_round (s : State) : s.roundMade.stt = s.roundEnded.beginRound.stt
    ∧ s.roundMade.coh = s.roundEnded.beginRound.coh ∧ s.roundMade.cli = s.closeRound.cli
    ∧ (∃ period next, s.roundMade.rck =
        { s.roundEnded.beginRound.rck with promptPeriod := period, nextPromptAt := next })
    ∧ ∃ allot budget, s.roundMade.sel =
        { s.roundEnded.beginRound.sel with promptAllot := allot, promptBudget := budget } := by
  have hcli : s.roundEnded.cli = s.closeRound.cli := rfl
  unfold State.roundMade
  split
  · exact ⟨by simp, by simp, by simp [hcli], ⟨_, _, rfl⟩, ⟨_, _, rfl⟩⟩
  · exact ⟨rfl, rfl, by simp [hcli], ⟨_, _, rfl⟩, ⟨_, _, rfl⟩⟩

/-- With prompt_sync = 1 the boundary begins a prompt period, and otherwise it leaves the prompt clock (R60, R74). -/
theorem roundMade_prompt (s : State) :
    (s.mod.config.promptSync = true →
      s.roundMade.rck.promptPeriod = s.rck.promptPeriod + 1
      ∧ s.roundMade.rck.nextPromptAt = s.rck.nextRoundAt + BitVec.ofNat 32 s.mod.config.promptPeriodUs
      ∧ s.roundMade.sel.promptAllot = promptAllotment s.mod.config s.sampleFree
      ∧ s.roundMade.sel.promptBudget = (promptAllotment s.mod.config s.sampleFree : Nat))
    ∧ (s.mod.config.promptSync = false →
      s.roundMade.rck.promptPeriod = s.rck.promptPeriod ∧ s.roundMade.rck.nextPromptAt = s.rck.nextPromptAt
      ∧ s.roundMade.sel.promptAllot = s.sel.promptAllot ∧ s.roundMade.sel.promptBudget = s.sel.promptBudget) := by
  refine ⟨fun hsync => ?_, fun hsync => ?_⟩
  · simp [State.roundMade, State.roundEnded, hsync, State.beginPromptPeriod, State.advancePrompt, State.sampleFree,
      deadlineAfter]
  · simp [State.roundMade, State.roundEnded, hsync]

theorem roundMade_begun (s : State) : RoundBegun s s.roundMade s.mgd.freeNow := by
  have hfree : s.roundEnded.mgd.freeNow = s.mgd.freeNow := by simp [State.roundEnded]
  have hbegun := beginRound_begun s.roundEnded
  rw [hfree] at hbegun
  obtain ⟨hstt, hcoh, -, ⟨_, _, hrck⟩, _, _, hsel⟩ := roundMade_round s
  exact hbegun.congr (by simp [State.roundEnded]) (by simp [State.roundEnded]) (by simp [State.roundEnded])
    (by simp [State.roundEnded]) (by rw [hrck]) (by rw [hrck]) (by rw [hsel]) (by rw [hsel]) (by rw [hsel]) hstt hcoh

/-- What no boundary touches. -/
theorem roundMade_keeps (s : State) : s.roundMade.rli = s.rli ∧ s.roundMade.fpl = s.fpl ∧ s.roundMade.ord = s.ord
    ∧ s.roundMade.mgd = s.mgd ∧ s.roundMade.mod = s.mod ∧ s.roundMade.resetN = s.resetN
    ∧ s.roundMade.pending = s.pending := by
  unfold State.roundMade
  split <;> simp [State.roundEnded]

theorem exec_roundBoundary {s : State} (h : s.resetN = false) : exec .roundBoundary s = .next s.takeRoundBoundary := by
  show execRoundBoundary s = _
  unfold execRoundBoundary
  rw [whenReleased_of_released _ h]

theorem roundDue_iff (s : State) :
    s.roundDue = true ↔ s.rck.clocksRunning = true ∧ passed s.rck.deviceTime s.rck.nextRoundAt = true := by
  simp [State.roundDue]

/-- Settles O47: the ended round closed, its clock advanced, and the new round formed from the part so left. -/
theorem roundBoundaryBeginsARound : Obligations.RoundBoundaryBeginsARound := by
  unfold Obligations.RoundBoundaryBeginsARound
  rintro s _ _ hr hc rfl rfl
  rw [exec_roundBoundary hr]
  unfold State.takeRoundBoundary
  refine ⟨fun hno => ?_, fun hrun hpassed => ?_⟩
  · rw [if_neg]
    rw [roundDue_iff]
    rintro ⟨hrun, hpassed⟩
    rcases hno with hno | hno
    · simp [hno] at hrun
    · simp [hno] at hpassed
  · rw [if_pos ((roundDue_iff s).mpr ⟨hrun, hpassed⟩), settle_of_no_choice hc, makeRoundBoundary_eq]
    obtain ⟨hround, hlast, hnext⟩ := roundEnded_rck s
    obtain ⟨-, -, hcli, ⟨_, _, hrck⟩, _, _, hsel⟩ := roundMade_round s
    obtain ⟨hsync, hfree⟩ := roundMade_prompt s
    obtain ⟨hquiet, hplaced, hskipped⟩ := closeRound_spec s _ rfl
    refine ⟨s.roundMade, rfl, roundMade_begun s, ?_, ?_, ?_, ?_, ?_, ?_, ?_, hsync, hfree, ?_, ?_, ?_, roundMade_keeps s⟩
    · simp [hrck, hround]
    · simp [hrck, hlast]
    · simp [hrck, hnext]
    · simp [hrck, hrun, State.roundEnded]
    · simp [hrck, State.roundEnded]
    · simp [hrck, State.roundEnded]
    · have hended : s.roundEnded.sel = s.sel := by simp [State.roundEnded]
      rw [hsel, beginRound_sel, hended]
    · simpa [hcli, hrck, State.roundEnded] using hquiet
    · simpa [hcli, hrck, State.roundEnded] using hplaced
    · simpa [hcli, hrck, State.roundEnded] using hskipped

end Sys2Proof.Machine
end

section
/-! MEDIUM_ALERT (R71, R145, R147, R148, R150, R154), and what a step takes (R68). -/
namespace Sys2Proof.Machine

/-! ## MEDIUM_ALERT -/

theorem exec_mediumAlert {s : State} {rest : List MacRecord} {cause : AlertCause}
    (h : s.Delivers (.mediumAlert cause) rest) : exec .mediumAlert s
      = .next (State.takeMedium (State.takeAlert cause) { s with rli := s.delivered rest }) := by
  show execMediumAlert s = _
  unfold execMediumAlert
  rw [whenReleased_of_released _ h.1, deliver_of_delivers _ h rfl]

theorem takeMedium_of_halted {s : State} (h : s.mod.mode = .halted) (f : State → State) :
    State.takeMedium f s = { s with
      mgd := { s.mgd with mediumIgnored := min (s.mgd.mediumIgnored + 1) 4294967295 } } :=
  if_pos h

theorem takeMedium_of_not_halted {s : State} (h : s.mod.mode ≠ .halted) (f : State → State) :
    State.takeMedium f s = f s :=
  if_neg h

/-- A cause that is present holds the part off RUNNING, so no run follows (R154). -/
theorem setCauses_of_nonempty {s : State} {q : QuietCauses} (hq : q ≠ .empty) :
    s.setCauses q = { s with mod := s.mod.quietSet q } := by
  rw [setCauses_eq, if_neg]
  rintro ⟨hquiet, hrunning⟩
  unfold Mod.quietSet at hrunning
  split at hrunning
  · rw [hquiet] at hrunning
    cases hrunning
  · simp [hquiet, hq] at hrunning

/-- The capture record behind an alert: only the first of an episode fills it (R147, R148). -/
theorem fillCapture_eq (s : State) (cause : AlertCause) : s.fillCapture cause = { s with
    mgd := { s.mgd with
      capture := if s.mod.causes.medium = true then s.mgd.capture
        else { time := s.rck.deviceTime, round := s.rck.round, offset := s.roundOffset, cause := cause } } } := by
  unfold State.fillCapture
  split <;> rfl

/-- An alert outside HALTED (R147): the capture, the cause, the blanking timer, the count and the flag. -/
theorem takeAlert_eq (s : State) (cause : AlertCause) : s.takeAlert cause = { s with
    mod := { s.mod.quietSet { s.mod.causes with medium := true } with pendingAlert := true }
    mgd := { s.mgd with
      capture := if s.mod.causes.medium = true then s.mgd.capture
        else { time := s.rck.deviceTime, round := s.rck.round, offset := s.roundOffset, cause := cause }
      blanking := if s.mod.config.blankMs = 0 then none
        else some (deadlineAfter s.rck.deviceTime (s.mod.config.blankMs * 1000))
      mediumAlerts := min (s.mgd.mediumAlerts + 1) 4294967295 } } := by
  have hq : ({ s.mod.causes with medium := true } : QuietCauses) ≠ .empty := by simp [QuietCauses.empty]
  unfold State.takeAlert
  simp only [fillCapture_eq, setCauses_of_nonempty hq]
  simp [State.restartBlanking, State.updMgd, State.setPendingAlert, State.updMod, satAdd]

/-- Settles O39: the alert taken, and the alert discarded in HALTED. -/
theorem mediumAlertBeginsAnEpisode : Obligations.MediumAlertBeginsAnEpisode := by
  unfold Obligations.MediumAlertBeginsAnEpisode
  intro s rest cause h
  rw [exec_mediumAlert h]
  refine ⟨fun hm => ?_, fun hm => ?_⟩
  · rw [takeMedium_of_halted (s := { s with rli := s.delivered rest }) hm]
  · rw [takeMedium_of_not_halted (s := { s with rli := s.delivered rest }) hm, takeAlert_eq]
    rfl

/-! ## Steps -/

theorem step_of_cons {s : State} {c : Instr} {rest : List Instr} (h : s.pending = c :: rest) :
    step s = exec c { s with pending := rest } := by
  unfold step
  rw [h]

theorem step_of_ownEvent {s : State} {c : Instr} (hp : s.pending = []) (h : s.ownEvent = some c) :
    step s = exec c s := by
  unfold step
  rw [hp, h]

theorem step_of_idle {s : State} (hp : s.pending = []) (h : s.ownEvent = none) : step s = .next s.tick := by
  unfold step
  rw [hp, h]

theorem tick_of_running {s : State} (h : s.rck.timeRunning = true) :
    s.tick = { s with rck := { s.rck with deviceTime := s.rck.deviceTime + 1 } } := by
  simp [State.tick, State.updRck, h]

theorem tick_of_stopped {s : State} (h : s.rck.timeRunning = false) : s.tick = s := by
  have htime : (if s.rck.timeRunning = true then s.rck.deviceTime + 1 else s.rck.deviceTime) = s.rck.deviceTime :=
    if_neg (by simp [h])
  unfold State.tick State.updRck
  dsimp only
  rw [htime]

/-- Settles O1, by the front of the queue and, where it is empty, the part's own events. -/
theorem stepTakesTheFrontCommand : Obligations.StepTakesTheFrontCommand := by
  unfold Obligations.StepTakesTheFrontCommand
  refine ⟨fun s c rest h => step_of_cons h, fun s hp => ⟨fun c h => step_of_ownEvent hp h, fun h hrun => ?_,
    fun h hstop => ?_⟩⟩
  · rw [step_of_idle hp h, tick_of_running hrun]
  · rw [step_of_idle hp h, tick_of_stopped hstop]

end Sys2Proof.Machine
end

section
/-!
SET_COHORT (R86 to R88): the checks in their order, and what a change of one record means for membership.
-/
namespace Sys2Proof.Machine

/-- Membership is recomputed behind a change of one cohort record exactly where that record's span differs (R88). -/
theorem updCohort_spans_iff (s : State) {n : Nat} (g : Cohort → Cohort) (hn : n < 32) :
    (s.updCohort n g).coh.cohorts.rows.map Cohort.span = s.coh.cohorts.rows.map Cohort.span ↔
      (g (s.cohort n)).span = (s.cohort n).span := by
  have hspans : (s.updCohort n g).coh.cohorts.rows.map Cohort.span = s.coh.cohorts.rows.map Cohort.span ↔
      ∀ c, c < 32 → ((s.updCohort n g).cohort c).span = (s.cohort c).span := spans_eq_iff _ _
  rw [hspans]
  constructor
  · intro h
    simpa [hn] using h n hn
  · intro h c _
    by_cases hc : c = n
    · rw [hc, updCohort_cohort_self s g hn, h]
    · rw [updCohort_cohort_of_ne s g hc]

/-- A change that leaves the span leaves STT as it is (R88). -/
theorem membershipAfter_updCohort_stt_of_span_eq (s : State) {n : Nat} {g : Cohort → Cohort} (hn : n < 32)
    (h : (g (s.cohort n)).span = (s.cohort n).span) : ((s.updCohort n g).membershipAfter s.coh).stt = s.stt := by
  unfold State.membershipAfter
  rw [if_pos ((updCohort_spans_iff s g hn).mpr h), updCohort_stt]

/-- A change of the span gives every station the membership that the new table says (R88). -/
theorem membershipAfter_updCohort_station_of_span_ne (s : State) {n i : Nat} {g : Cohort → Cohort} (hn : n < 32)
    (h : (g (s.cohort n)).span ≠ (s.cohort n).span) (hi : i < 512) :
    ((s.updCohort n g).membershipAfter s.coh).station i
      = { s.station i with cohort := memberOf (s.updCohort n g).coh.cohorts.rows i } := by
  rw [membershipAfter_station _ _ _ hi, if_neg (mt (updCohort_spans_iff s g hn).mp h), updCohort_station]

/-- The checks of SET_COHORT behind its mode (R86), and the two ways it takes effect (R87). -/
theorem decideSetCohort_checks {s : State} {b : List Byte} {f : CohortFields} (hm : s.mod.mode ≠ .halted)
    (hf : f = parseSetCohort b) :
    decideSetCohort s b = if 31 < f.number ∨ 512 < f.span ∨ (f.span ≠ 0 ∧ (f.capPm < 1 ∨ 1000 < f.capPm))
        then refuse s .badRange
      else accept (if s.mod.mode = .ready then (s.updCohort f.number (Cohort.change f)).membershipAfter s.coh
        else s.updCohort f.number (Cohort.stage f)) := by
  have hnumber : (!decide (f.number < Config.cohortCount)) = true ↔ 31 < f.number := by
    simp [Nat.succ_le_iff]
  have hspan : (!inRange 0 512 f.span) = true ↔ 512 < f.span := by simp [inRange]
  have hcap : (f.span != 0 && !inRange 1 1000 f.capPm) = true ↔
      f.span ≠ 0 ∧ (f.capPm < 1 ∨ 1000 < f.capPm) := by
    simp [inRange]
  unfold decideSetCohort
  dsimp only
  rw [← hf, if_neg hm]
  simp only [hnumber, hspan, hcap]
  by_cases h1 : 31 < f.number
  · rw [if_pos h1, if_pos (Or.inl h1)]
  · by_cases h2 : 512 < f.span
    · rw [if_neg h1, if_pos h2, if_pos (Or.inr (Or.inl h2))]
    · simp only [h1, h2, false_or, if_false, apply_ite accept]

/-- Settles O27, check by check; the membership of R88 is `memberOf_eq_some`. -/
theorem setCohortAppliesOrStages : Obligations.SetCohortAppliesOrStages := by
  unfold Obligations.SetCohortAppliesOrStages
  intro s r rest f h hf
  refine ⟨fun hm => exec_unchanged h (by simp) (if_pos hm), fun hm h1 => ?_,
    fun hm h1 h2 h3 => ⟨fun hr => ?_, fun hr => ?_⟩, memberOf_eq_some⟩
  all_goals
    have hd := decideSetCohort_checks (s := s.taken rest) hm hf
    simp only [taken_keeps] at hd
  · rw [if_pos h1] at hd
    exact exec_unchanged h (by simp) hd
  · rw [if_neg (by omega), if_neg hr] at hd
    exact exec_answered h (by simp) hd rfl rfl rfl
  · rw [if_neg (by omega), if_pos hr] at hd
    have hn : f.number < 32 := by omega
    have hx := exec_answered h (by simp) hd (by simp) (by simp) (by simp)
    have hkept := membershipAfter_updCohort_stt_of_span_eq (s.taken rest) (g := Cohort.change f) hn
    have hmember := fun i =>
      membershipAfter_updCohort_station_of_span_ne (s.taken rest) (i := i) (g := Cohort.change f) hn
    have hcoh : (((s.taken rest).updCohort f.number (Cohort.change f)).membershipAfter s.coh).coh
        = ((s.taken rest).updCohort f.number (Cohort.change f)).coh := by simp
    simp only [taken_keeps] at hkept hmember
    rw [← hcoh] at hmember
    refine ⟨_, hx, rfl, hcoh, fun he => hkept he.symm, fun he i hi => hmember i (Ne.symm he) hi, ?_⟩
    simp

end Sys2Proof.Machine
end

section
/-!
A selection run (R104 to R113): what each of its five steps answers, by the candidate it finds, and the run that follows
the first of them to find one.
-/
namespace Sys2Proof.Machine

/-! ## The run -/

theorem selectionOpen_iff (s : State) : s.selectionOpen = true ↔ s.RunOpen := by
  simp [State.selectionOpen, State.RunOpen]

theorem selectionRun_of_not_open {s : State} (h : ¬ s.RunOpen) : s.selectionRun = s := by
  rw [← selectionOpen_iff] at h
  simp [State.selectionRun, h]

theorem selectionRun_of_pick {s : State} {p : Picked} (ho : s.RunOpen) (hp : s.pick = some p) :
    s.selectionRun = { s with sel := { p.sel with choice := some p.choice } } := by
  rw [← selectionOpen_iff] at ho
  simp [State.selectionRun, ho, hp, State.updSel]

theorem selectionRun_of_no_pick {s : State} (hp : s.pick = none) : s.selectionRun = s := by
  simp [State.selectionRun, hp]

/-- The five steps in order (R106). -/
theorem pick_eq (s : State) :
    s.pick = s.groupStep.or (s.pollStep.or (s.promptStep.or (s.fairPass.or s.spillPass))) := by
  simp [State.pick]

/-! ## The steps -/

theorem groupStep_of_open {s : State} (h : s.GroupOpen) :
    s.groupStep = some { choice := { station := 0, lane := .bulk, kind := .group }, sel := s.sel } := by
  obtain ⟨hdue, hlane, hbudget⟩ := h
  simp [State.groupStep, hdue, hlane, hbudget]

theorem groupStep_of_shut {s : State} (h : ¬ s.GroupOpen) : s.groupStep = none := by
  unfold State.groupStep
  rw [if_neg]
  simpa [State.GroupOpen, and_assoc] using h

theorem pollStep_of_head {s : State} {i : Nat} {rest : List Nat} {l : Lane} (hq : s.sel.poll = i :: rest)
    (hl : (s.lanesOf i).first = some l) :
    s.pollStep = some { choice := { station := i, lane := l, kind := .poll }, sel := { s.sel with poll := rest } } := by
  simp [State.pollStep, hq, hl]

theorem pollStep_of_nil {s : State} (hq : s.sel.poll = []) : s.pollStep = none := by
  simp [State.pollStep, hq]

/-- The first station of the prompt list that is not held moves to its tail (R109). -/
theorem promptStep_of_split {s : State} {pre post : List Nat} {i : Nat} (hb : 0 < s.sel.promptBudget)
    (hq : s.sel.prompt = pre ++ i :: post) (hpre : ∀ j ∈ pre, (s.station j).held = true)
    (hi : (s.station i).held = false) :
    s.promptStep = some { choice := { station := i, lane := .prompt, kind := .prompt }
                          sel := { s.sel with prompt := pre ++ post ++ [i] } } := by
  have hfind : s.sel.prompt.find? (fun j => !(s.station j).held) = some i := by
    rw [hq]
    exact find_first (by simpa using hpre) (by simp [hi])
  have hout : i ∉ pre := fun hm => by simp [hpre i hm] at hi
  have herase : s.sel.prompt.erase i = pre ++ post := by
    rw [hq, List.erase_append_right _ hout, List.erase_cons_head]
  simp [State.promptStep, hb, hfind, herase]

theorem promptStep_of_shut {s : State} (h : s.PromptShut) : s.promptStep = none := by
  unfold State.promptStep
  split
  · rename_i hb
    have hheld := h.resolve_left (not_le.mpr hb)
    simpa using hheld
  · rfl

/-- The first station of the ring that passes is chosen, and the cursor moves past it (R110, R111). -/
theorem scan_of_split {s : State} {bound : Int} (k : Kind) {pre post : List Nat} {i : Nat} {l : Lane}
    (hn : s.sel.active.Nodup) (hq : s.sel.active = pre ++ i :: post) (hpre : ∀ j ∈ pre, ¬ s.PassesAbove bound j)
    (hi : s.PassesAbove bound i) (hl : (s.lanesOf i).first = some l) :
    s.scan bound k = some { choice := { station := i, lane := l, kind := k }
                            sel := { s.sel with active := post ++ pre ++ [i] } } := by
  have hfind : s.sel.active.find? (s.passes bound) = some i := by
    rw [hq]
    exact find_first (fun j hj => by simpa [← passes_iff] using hpre j hj) ((passes_iff s bound i).mpr hi)
  have hturn : rotatePast s.sel.active i = post ++ pre ++ [i] := by
    rw [hq] at hn ⊢
    exact rotatePast_split hn
  simp [State.scan, hfind, hl, hturn]

theorem scan_of_none {s : State} {bound : Int} (k : Kind) (h : ∀ j ∈ s.sel.active, ¬ s.PassesAbove bound j) :
    s.scan bound k = none := by
  have hfind : s.sel.active.find? (s.passes bound) = none := by
    rw [List.find?_eq_none]
    exact fun j hj => by simpa [passes_iff] using h j hj
  simp [State.scan, hfind]

/-! ## The first step that finds a candidate -/

theorem pick_of_group {s : State} (h : s.GroupOpen) :
    s.pick = some { choice := { station := 0, lane := .bulk, kind := .group }, sel := s.sel } := by
  simp [pick_eq, groupStep_of_open h]

theorem pick_behind_group {s : State} (h : ¬ s.GroupOpen) :
    s.pick = s.pollStep.or (s.promptStep.or (s.fairPass.or s.spillPass)) := by
  simp [pick_eq, groupStep_of_shut h]

theorem pick_behind_poll {s : State} (h : ¬ s.GroupOpen) (hq : s.sel.poll = []) :
    s.pick = s.promptStep.or (s.fairPass.or s.spillPass) := by
  simp [pick_behind_group h, pollStep_of_nil hq]

theorem pick_behind_prompt {s : State} (h : ¬ s.GroupOpen) (hq : s.sel.poll = []) (hp : s.PromptShut) :
    s.pick = (s.scan 0 .fair).or s.spillPass := by
  simp [pick_behind_poll h hq, promptStep_of_shut hp, State.fairPass]

theorem spillPass_of_set {s : State} (h : s.mod.config.spill = true) :
    s.spillPass = s.scan (-(s.mod.config.debtLimitUs : Int)) .spill :=
  if_pos h

theorem spillPass_of_none {s : State} (h : s.mod.config.spill = false
    ∨ ∀ j ∈ s.sel.active, ¬ s.PassesAbove (-(s.mod.config.debtLimitUs : Int)) j) : s.spillPass = none := by
  unfold State.spillPass
  split
  · rename_i hset
    exact scan_of_none _ (h.resolve_left (by simp [hset]))
  · rfl

/-- Settles O49: the choice of the first step that finds a candidate, those before it shut. -/
theorem selectionRunTakesTheFirstCandidate : Obligations.SelectionRunTakesTheFirstCandidate := by
  unfold Obligations.SelectionRunTakesTheFirstCandidate
  intro s
  refine ⟨selectionRun_of_not_open, fun ho hg => ?_, fun ho hg i rest l hq hl => ?_,
    fun ho hg hq pre i post hb hp hpre hi => ?_, fun ho hg hq hp hn => ⟨fun pre i post l ha hpre hi hl => ?_,
      fun hfair hset pre i post l ha hpre hi hl => ?_, fun hfair hspill => ?_⟩, fun i l => first_eq_some _ _⟩
  · rw [selectionRun_of_pick ho (pick_of_group hg)]
  · rw [selectionRun_of_pick ho (by rw [pick_behind_group hg, pollStep_of_head hq hl, Option.some_or])]
  · rw [selectionRun_of_pick ho (by rw [pick_behind_poll hg hq, promptStep_of_split hb hp hpre hi, Option.some_or])]
  · rw [selectionRun_of_pick ho
      (by rw [pick_behind_prompt hg hq hp, scan_of_split .fair hn ha hpre hi hl, Option.some_or])]
  · rw [selectionRun_of_pick ho (by
      rw [pick_behind_prompt hg hq hp, scan_of_none .fair hfair, Option.none_or, spillPass_of_set hset,
        scan_of_split .spill hn ha hpre hi hl])]
  · exact selectionRun_of_no_pick (by
      rw [pick_behind_prompt hg hq hp, scan_of_none .fair hfair, Option.none_or, spillPass_of_none hspill])

end Sys2Proof.Machine
end

section
/-! ORDER_BUILD of a choice whose lane is empty (R106, R121): the count, the POLL_EMPTY, and the run that follows. -/
namespace Sys2Proof.Machine

theorem exec_orderBuild {s : State} (h : s.resetN = false) : exec .orderBuild s = .next s.buildOrder := by
  show execOrderBuild s = _
  unfold execOrderBuild
  rw [whenReleased_of_released _ h]

theorem buildOrder_of_no_choice {s : State} (h : s.sel.choice = none) : s.buildOrder = s := by
  simp [State.buildOrder, h]

/-- The state behind the choice of an empty lane, before its POLL_EMPTY: the choice is gone and is counted (R121). -/
def State.choiceCounted (s : State) : State :=
  { s with
    sel := { s.sel with choice := none }
    ord := { s.ord with counters := { s.ord.counters with
      ordersEmpty := min (s.ord.counters.ordersEmpty + 1) 4294967295 } } }

theorem buildOrder_of_empty_lane {s : State} {c : Choice} (hc : s.sel.choice = some c)
    (hl : s.lane c.station c.lane = []) :
    s.buildOrder
      = (if c.kind = .poll then s.choiceCounted.formPollEmpty c.station else s.choiceCounted).selectionRun := by
  have hbuild : (s.updSel fun e => { e with choice := none }).buildChoice c
      = (s.updSel fun e => { e with choice := none }).emptyChoice c := by
    unfold State.buildChoice
    split
    · rfl
    · rename_i hne
      exact absurd ((aggregate_eq_nil _ _ _ _).mpr hl) hne
  unfold State.buildOrder
  rw [hc]
  dsimp only
  rw [hbuild]
  rfl

/-- A note formed touches the line for the MAC alone (R6, R183). -/
theorem formNote_line_alone (s : State) (n : LinkNote) :
    { s.formNote n with
      rli := { (s.formNote n).rli with outbound := s.rli.outbound }
      stt := { (s.formNote n).stt with linkNotes := s.stt.linkNotes }
      ord := { (s.formNote n).ord with cancelPending := s.ord.cancelPending } } = s := by
  have hframe := formNote_frame s n
  have hstt : { (s.formNote n).stt with linkNotes := s.stt.linkNotes } = s.stt := formNote_stt_frame s n
  rw [hframe.1, hframe.2, hstt]
  simp

/-- Settles O52: the counted choice, then the POLL_EMPTY that a POLL choice forms unless one is queued. -/
theorem emptyBuildIssuesNoOrder : Obligations.EmptyBuildIssuesNoOrder := by
  unfold Obligations.EmptyBuildIssuesNoOrder
  intro s h
  rw [exec_orderBuild h]
  refine ⟨fun hn => by rw [buildOrder_of_no_choice hn], fun c t hc hl ht => ?_⟩
  have htc : t = s.choiceCounted := ht
  rw [buildOrder_of_empty_lane hc hl, ← htc]
  refine ⟨fun hquiet => ?_, fun hk hn => ?_⟩
  · split
    · rename_i hk
      have hqueued : LinkNote.pollEmpty c.station ∈ t.stt.linkNotes :=
        htc ▸ hquiet.resolve_left fun hne => hne hk
      rw [State.formPollEmpty, if_pos hqueued]
    · rfl
  · have hnone : LinkNote.pollEmpty c.station ∉ t.stt.linkNotes := htc ▸ hn
    have hline : t.radioLine = s.radioLine := by rw [htc]; rfl
    rw [if_pos hk, State.formPollEmpty, if_neg hnone]
    refine ⟨_, rfl, ?_, formNote_radioServed _ _, formNote_line_alone _ _⟩
    rw [formNote_radioLine, hline]
    rfl

end Sys2Proof.Machine
end

section
/-!
StepKeepsTheLists: ListInv station by station. What one station's record, its lanes, its places on the selector's lists
and the orders that name it must satisfy together (Fits), and the whole part's agreement with the orders that it counts
(Agrees). A lane that empties or fills changes one station (R3).
-/
namespace Sys2Proof.Machine

/-- How many of the orders name station `i`. -/
def naming (os : List Order) (i : Nat) : Nat :=
  os.countP fun o => o.station == i

/-- Station `i`: its state, its lanes, its places on the lists, and its count of the orders `os` in flight (R2, R3, R7,
R8, R17, R96, R99, R100). -/
structure State.Fits (s : State) (os : List Order) (i : Nat) : Prop where
  active : i ∈ s.sel.active ↔ i ≠ 0 ∧ (s.station i).state = .backlogged
  prompt : i ∈ s.sel.prompt ↔ i ≠ 0 ∧ (s.station i).state = .backlogged ∧ s.lane i .prompt ≠ []
  poll : i ∈ s.sel.poll → i ≠ 0 ∧ (s.station i).state = .dozing ∧ (s.lanesOf i).allEmpty = false
  backlogged : i ≠ 0 → (s.station i).state = .backlogged → (s.lanesOf i).allEmpty = false
  idle : i ≠ 0 → (s.station i).state = .idle → (s.lanesOf i).allEmpty = true
  gone : (s.station i).state = .vacant ∨ (s.station i).state = .leaving → (s.lanesOf i).allEmpty = true
  group : i = 0 → (s.station i).state = (if s.mod.mode = .halted then .vacant else .idle)
    ∧ s.lane i .prompt = [] ∧ s.lane i .slack = []
  inFlight : (s.station i).inFlight = naming os i
  vacant : (s.station i).state = .vacant → (s.station i).inFlight = 0
  leaving : (s.station i).state = .leaving → (s.station i).inFlight ≠ 0

/-- ListInv, with `os` for the orders that in_flight counts: a conclusion lowers the count before or after the order's
record goes (R125, R131, R137). -/
structure State.Agrees (s : State) (os : List Order) : Prop where
  activeOnce : s.sel.active.Nodup
  promptOnce : s.sel.prompt.Nodup
  pollOnce : s.sel.poll.Nodup
  fits : ∀ i, s.Fits os i
  choice : ∀ c, s.sel.choice = some c → c.station ∉ s.sel.poll
  groupOrders : ∀ o ∈ os, o.station = 0 → o.lane = .bulk

theorem listInv_iff (s : State) : s.ListInv ↔ s.Agrees s.ord.outstanding := by
  constructor
  · intro h
    refine ⟨h.activeOnce, h.promptOnce, h.pollOnce, fun i => ?_, h.choice, h.groupOrders⟩
    refine ⟨h.active i, h.prompt i, h.poll i, h.backlogged i, h.idle i, h.gone i, ?_, h.inFlight i, h.vacant i,
      h.leaving i⟩
    rintro rfl
    exact ⟨h.group, h.groupLane⟩
  · intro h
    have h0 := (h.fits 0).group rfl
    exact ⟨h.activeOnce, fun i => (h.fits i).active, h.promptOnce, fun i => (h.fits i).prompt, h.pollOnce,
      fun i => (h.fits i).poll, fun i => (h.fits i).backlogged, fun i => (h.fits i).idle, fun i => (h.fits i).gone,
      h.choice, h0.1, h0.2, h.groupOrders, fun i => (h.fits i).inFlight, fun i => (h.fits i).vacant,
      fun i => (h.fits i).leaving⟩

/-! ## What the agreement reads -/

theorem allEmpty_iff_lane (s : State) (i : Nat) : (s.lanesOf i).allEmpty = true ↔ ∀ l, s.lane i l = [] :=
  Lanes.allEmpty_iff _

theorem allEmpty_of_lane {s : State} {i : Nat} {l : Lane} (h : s.lane i l ≠ []) : (s.lanesOf i).allEmpty = false := by
  rw [Bool.eq_false_iff, Ne, allEmpty_iff_lane]
  exact fun hall => h (hall l)

/-- What Fits reads of station `i`, but for its in_flight count, is the same in `t` as in `s`. -/
structure State.SameSeat (s t : State) (i : Nat) : Prop where
  state : (t.station i).state = (s.station i).state
  lanes : ∀ l, t.lane i l = [] ↔ s.lane i l = []
  active : i ∈ t.sel.active ↔ i ∈ s.sel.active
  prompt : i ∈ t.sel.prompt ↔ i ∈ s.sel.prompt
  poll : i ∈ t.sel.poll → i ∈ s.sel.poll
  halted : i = 0 → (t.mod.mode = .halted ↔ s.mod.mode = .halted)

/-- What Fits reads of station `i` is the same in `t` as in `s`. -/
structure State.SameAt (s t : State) (i : Nat) : Prop extends State.SameSeat s t i where
  inFlight : (t.station i).inFlight = (s.station i).inFlight

/-- A station whose count of orders alone changes (R17). -/
theorem State.Fits.recount {s t : State} {os ps : List Order} {i : Nat} (h : s.Fits os i) (he : s.SameSeat t i)
    (hn : (t.station i).inFlight = naming ps i) (hvacant : (s.station i).state = .vacant → (t.station i).inFlight = 0)
    (hleaving : (s.station i).state = .leaving → (t.station i).inFlight ≠ 0) : t.Fits ps i := by
  have hall : (t.lanesOf i).allEmpty = (s.lanesOf i).allEmpty := by
    rw [Bool.eq_iff_iff, allEmpty_iff_lane, allEmpty_iff_lane]
    exact forall_congr' he.lanes
  obtain ⟨hstate, hlanes, hactive, hprompt, hpoll, hhalted⟩ := he
  refine ⟨?_, ?_, fun hm => ?_, ?_, ?_, ?_, fun h0 => ?_, hn, ?_, ?_⟩
  · rw [hactive, hstate]
    exact h.active
  · simpa only [hprompt, hstate, ne_eq, hlanes] using h.prompt
  · rw [hstate, hall]
    exact h.poll (hpoll hm)
  · rw [hstate, hall]
    exact h.backlogged
  · rw [hstate, hall]
    exact h.idle
  · rw [hstate, hall]
    exact h.gone
  · rw [hstate, hlanes, hlanes]
    simpa only [hhalted h0] using h.group h0
  · rwa [hstate]
  · rwa [hstate]

theorem State.Fits.congr {s t : State} {os ps : List Order} {i : Nat} (h : s.Fits os i) (he : s.SameAt t i)
    (hn : naming ps i = naming os i) : t.Fits ps i :=
  h.recount he.toSameSeat (by rw [he.inFlight, hn, h.inFlight]) (by rw [he.inFlight]; exact h.vacant)
    (by rw [he.inFlight]; exact h.leaving)

/-- The lists, the states and the counts of the stations, the lanes and whether the part is HALTED, are the same in `t`
as in `s`; and `t` has no choice that `s` has not. -/
@[simp] def State.SameLists (s t : State) : Prop :=
  t.sel.active = s.sel.active ∧ t.sel.prompt = s.sel.prompt ∧ t.sel.poll = s.sel.poll
    ∧ (t.sel.choice = s.sel.choice ∨ t.sel.choice = none)
    ∧ (∀ i, (t.station i).state = (s.station i).state) ∧ (∀ i, (t.station i).inFlight = (s.station i).inFlight)
    ∧ (∀ i l, t.lane i l = s.lane i l) ∧ (t.mod.mode = .halted ↔ s.mod.mode = .halted)

theorem State.Agrees.congr {s t : State} {os : List Order} (h : s.Agrees os) (he : s.SameLists t) : t.Agrees os := by
  obtain ⟨hactive, hprompt, hpoll, hchoice, hstate, hfly, hlanes, hhalted⟩ := he
  refine ⟨hactive ▸ h.activeOnce, hprompt ▸ h.promptOnce, hpoll ▸ h.pollOnce, fun i => ?_, fun c hc => ?_,
    h.groupOrders⟩
  · exact (h.fits i).congr ⟨⟨hstate i, fun l => by rw [hlanes], by rw [hactive], by rw [hprompt],
      fun hm => hpoll ▸ hm, fun _ => hhalted⟩, hfly i⟩ rfl
  · rw [hpoll]
    rcases hchoice with e | e
    · exact h.choice c (e ▸ hc)
    · rw [e] at hc
      cases hc

/-- A change of station `i` and of its places on the lists alone. -/
theorem State.Agrees.of_local {s t : State} {os ps : List Order} {i : Nat} (h : s.Agrees os)
    (hother : ∀ j, j ≠ i → s.SameAt t j) (hfit : t.Fits ps i)
    (hlists : t.sel.active.Nodup ∧ t.sel.prompt.Nodup ∧ t.sel.poll.Nodup)
    (hpoll : ∀ j ∈ t.sel.poll, j ∈ s.sel.poll) (hchoice : t.sel.choice = s.sel.choice)
    (hn : ∀ j, j ≠ i → naming ps j = naming os j) (hgroup : ∀ o ∈ ps, o.station = 0 → o.lane = .bulk) :
    t.Agrees ps := by
  obtain ⟨h1, h2, h3⟩ := hlists
  refine ⟨h1, h2, h3, fun j => ?_, fun c hc hm => h.choice c (hchoice ▸ hc) (hpoll _ hm), hgroup⟩
  by_cases hj : j = i
  · exact hj ▸ hfit
  · exact (h.fits j).congr (hother j hj) (hn j hj)

/-- An index joins a list at its tail, once. -/
theorem mem_joinTail {q : List Nat} {i j : Nat} : j ∈ joinTail q i ↔ j ∈ q ∨ j = i := by
  unfold joinTail
  split
  · rename_i hm
    exact ⟨.inl, fun hj => hj.elim id fun e => e ▸ hm⟩
  · simp

theorem joinTail_nodup {q : List Nat} (i : Nat) (h : q.Nodup) : (joinTail q i).Nodup := by
  unfold joinTail
  split
  · exact h
  · rename_i hm
    rw [← List.concat_eq_append]
    exact (List.nodup_concat _ _).mpr ⟨hm, h⟩

/-! ## The four kinds of station -/

section
variable {s : State} {os : List Order} {i : Nat} (hn : (s.station i).inFlight = naming os i)
include hn

/-- Station 0 is on no list, and its BULK lane alone can be filled (R2, R25). -/
theorem fits_group (h0 : i = 0) (hstate : (s.station i).state = if s.mod.mode = .halted then .vacant else .idle)
    (hoff : i ∉ s.sel.active ∧ i ∉ s.sel.prompt ∧ i ∉ s.sel.poll)
    (hlanes : s.lane i .prompt = [] ∧ s.lane i .slack = [])
    (hgone : (s.station i).state = .vacant → (s.lanesOf i).allEmpty = true ∧ (s.station i).inFlight = 0) :
    s.Fits os i := by
  have hnot : (s.station i).state ≠ .leaving := by
    rw [hstate]
    split <;> simp
  exact ⟨iff_of_false hoff.1 fun h => h.1 h0, iff_of_false hoff.2.1 fun h => h.1 h0, fun hm => absurd hm hoff.2.2,
    fun h => absurd h0 h, fun h => absurd h0 h, fun hg => (hgone (hg.resolve_right hnot)).1, fun _ => ⟨hstate, hlanes⟩,
    hn, fun hv => (hgone hv).2, fun hl => absurd hl hnot⟩

/-- A client station with empty lanes is on no list while it is not BACKLOGGED (R3, R7, R8). -/
theorem fits_bare (h0 : i ≠ 0) (hstate : (s.station i).state ≠ .backlogged)
    (hoff : i ∉ s.sel.active ∧ i ∉ s.sel.prompt ∧ i ∉ s.sel.poll) (hlanes : (s.lanesOf i).allEmpty = true)
    (hvacant : (s.station i).state = .vacant → (s.station i).inFlight = 0)
    (hleaving : (s.station i).state = .leaving → (s.station i).inFlight ≠ 0) : s.Fits os i :=
  ⟨by simp [hoff, hstate], by simp [hoff, hstate], fun hm => absurd hm hoff.2.2, fun _ h => absurd h hstate,
    fun _ _ => hlanes, fun _ => hlanes, fun h => absurd h h0, hn, hvacant, hleaving⟩

/-- A BACKLOGGED station is on the active list, and on the prompt list by its PROMPT lane (R96, R99). -/
theorem fits_backlogged (h0 : i ≠ 0) (hstate : (s.station i).state = .backlogged) (hactive : i ∈ s.sel.active)
    (hprompt : i ∈ s.sel.prompt ↔ s.lane i .prompt ≠ []) (hpoll : i ∉ s.sel.poll)
    (hlanes : (s.lanesOf i).allEmpty = false) : s.Fits os i :=
  ⟨by simp [hactive, h0, hstate], by simp [hprompt, h0, hstate], fun hm => absurd hm hpoll, fun _ _ => hlanes,
    by simp [hstate], by simp [hstate], fun h => absurd h h0, hn, by simp [hstate], by simp [hstate]⟩

/-- A DOZING station is on the poll list alone, and only with a filled lane (R12, R100). -/
theorem fits_dozing (h0 : i ≠ 0) (hstate : (s.station i).state = .dozing) (hactive : i ∉ s.sel.active)
    (hprompt : i ∉ s.sel.prompt) (hpoll : i ∈ s.sel.poll → (s.lanesOf i).allEmpty = false) : s.Fits os i :=
  ⟨by simp [hactive, hstate], by simp [hprompt, hstate], fun hm => ⟨h0, hstate, hpoll hm⟩, by simp [hstate],
    by simp [hstate], by simp [hstate], fun h => absurd h h0, hn, by simp [hstate], by simp [hstate]⟩

end

namespace State.Fits
variable {s : State} {os : List Order} {i : Nat} (h : s.Fits os i)
include h

theorem off_of_state (hb : i = 0 ∨ (s.station i).state ≠ .backlogged) (hd : i = 0 ∨ (s.station i).state ≠ .dozing) :
    i ∉ s.sel.active ∧ i ∉ s.sel.prompt ∧ i ∉ s.sel.poll := by
  refine ⟨fun hm => ?_, fun hm => ?_, fun hm => ?_⟩
  · have := h.active.mp hm
    tauto
  · have := h.prompt.mp hm
    tauto
  · have := h.poll hm
    tauto

theorem off_active (hb : (s.station i).state ≠ .backlogged) : i ∉ s.sel.active ∧ i ∉ s.sel.prompt :=
  ⟨fun hm => hb (h.active.mp hm).2, fun hm => hb (h.prompt.mp hm).2.1⟩

theorem off_poll (hd : (s.station i).state ≠ .dozing) : i ∉ s.sel.poll := fun hm => hd (h.poll hm).2.1

/-- A client station with a filled lane is BACKLOGGED or DOZING (R3, R7). -/
theorem state_of_lane (h0 : i ≠ 0) (hl : (s.lanesOf i).allEmpty = false) :
    (s.station i).state = .backlogged ∨ (s.station i).state = .dozing := by
  cases hs : (s.station i).state with
  | backlogged => exact .inl rfl
  | dozing => exact .inr rfl
  | idle => simp [h.idle h0 hs] at hl
  | vacant => simp [h.gone (.inl hs)] at hl
  | leaving => simp [h.gone (.inr hs)] at hl

end State.Fits

theorem laneNonempty_active_joins (s : State) (i : Nat) (l : Lane) : (s.laneNonempty i l).sel.active =
    if i ≠ 0 ∧ (s.station i).state = .idle then joinTail s.sel.active i else s.sel.active := by
  rw [laneNonempty_active, joinTail]
  by_cases hm : i ∈ s.sel.active <;> simp [hm]

theorem laneNonempty_prompt_joins (s : State) (i : Nat) (l : Lane) : (s.laneNonempty i l).sel.prompt =
    if i ≠ 0 ∧ l = .prompt ∧ ((s.station i).state = .idle ∨ (s.station i).state = .backlogged)
      then joinTail s.sel.prompt i else s.sel.prompt := by
  rw [laneNonempty_prompt, joinTail]
  by_cases hm : i ∈ s.sel.prompt <;> simp [hm]

/-! ## One lane changes -/

/-- `u` is `s` with the entries `q` in lane `l` of station `i`, as far as the lists, the lanes and the stations go. -/
structure State.Relaid (s u : State) (i : Nat) (l : Lane) (q : List Frame) : Prop where
  lanes : ∀ j k, u.lane j k = if j = i ∧ k = l then q else s.lane j k
  stations : ∀ j, u.station j = s.station j
  sel : u.sel = s.sel
  mode : u.mod.mode = s.mod.mode

theorem relaid_of_setLane {s u : State} {i : Nat} {l : Lane} {q : List Frame} (hi : i < 512)
    (hlanes : u.fpl.lanes = (s.setLane i l q).fpl.lanes) (hstt : u.stt = s.stt) (hsel : u.sel = s.sel)
    (hmod : u.mod = s.mod) : s.Relaid u i l q where
  lanes j k := by
    rw [lane_congr hlanes, setLane_lane]
    by_cases hj : j = i <;> simp [hj, hi, Config.stationCount]
  stations j := by simp [State.station, hstt]
  sel := hsel
  mode := by rw [hmod]

section
variable {s u : State} {os : List Order} {i : Nat} {l : Lane} {q : List Frame} (h : s.Agrees os)
include h

/-- A lane that stays empty, or stays filled. -/
theorem State.Agrees.relaid (hr : s.Relaid u i l q) (hq : q = [] ↔ s.lane i l = []) : u.Agrees os := by
  obtain ⟨hlanes, hstations, hsel, hmode⟩ := hr
  refine ⟨hsel ▸ h.activeOnce, hsel ▸ h.promptOnce, hsel ▸ h.pollOnce, fun j => ?_, hsel ▸ h.choice, h.groupOrders⟩
  refine (h.fits j).congr ⟨⟨by rw [hstations], fun k => ?_, by rw [hsel], by rw [hsel], by rw [hsel]; exact id,
    fun _ => by rw [hmode]⟩, by rw [hstations]⟩ rfl
  rw [hlanes]
  split
  · rename_i e
    rw [e.1, e.2, hq]
  · rfl

/-- A station whose lane has lost its last entry (R3). -/
theorem State.Agrees.emptied_fits (hr : s.Relaid u i l []) (hl : s.lane i l ≠ []) : (u.laneEmpty i l).Fits os i := by
  have hf := h.fits i
  have hfull := allEmpty_of_lane hl
  obtain ⟨hlanes, hstations, hsel, hmode⟩ := hr
  have hst := laneEmpty_station u i i l (lt_of_lane_ne_nil hl)
  have hactive := laneEmpty_active u i l
  have hprompt := laneEmpty_prompt u i l
  have hpoll := laneEmpty_poll u i l
  simp only [hstations, hsel, true_and] at hst hactive hprompt hpoll
  have hn : ((u.laneEmpty i l).station i).inFlight = naming os i := by
    rw [hst]
    split <;> exact hf.inFlight
  have hkeep : ∀ k, (u.laneEmpty i l).lane i k = u.lane i k := by simp
  have hall : ((u.laneEmpty i l).lanesOf i).allEmpty = (u.lanesOf i).allEmpty := by simp
  by_cases h0 : i = 0
  · obtain ⟨hstate, hp, hk⟩ := hf.group h0
    rw [if_neg (fun e => e.1 h0)] at hst hactive hprompt hpoll
    refine fits_group hn h0 ?_ ?_ ?_ fun hv => ?_
    · rw [hst, hstate]
      simp [hmode]
    · rw [hactive, hprompt, hpoll]
      exact hf.off_of_state (.inl h0) (.inl h0)
    · simp [hlanes, hp, hk]
    · rw [hst] at hv
      simp [hf.gone (.inl hv)] at hfull
  rcases hf.state_of_lane h0 hfull with hb | hd
  · have hplace : i ∈ (u.laneEmpty i l).sel.prompt ↔ u.lane i .prompt ≠ [] := by
      rw [hprompt, hlanes]
      by_cases e : l = .prompt
      · simp [h0, hb, e, h.promptOnce.mem_erase_iff]
      · simp [e, Ne.symm e, hf.prompt, h0, hb]
    rw [if_neg (by simp [hb])] at hpoll
    have hout : i ∉ (u.laneEmpty i l).sel.poll := hpoll ▸ hf.off_poll (by simp [hb])
    by_cases ha : (u.lanesOf i).allEmpty = true
    · rw [if_pos ⟨h0, hb, ha⟩] at hst hactive
      refine fits_bare hn h0 (by simp [hst]) ⟨?_, ?_, hout⟩ (by rwa [hall]) (by simp [hst]) (by simp [hst])
      · simp [hactive, h.activeOnce.mem_erase_iff]
      · simpa [hplace] using (allEmpty_iff_lane u i).mp ha .prompt
    · rw [if_neg (fun e => ha e.2.2)] at hst hactive
      exact fits_backlogged hn h0 (by rw [hst, hb]) (hactive ▸ hf.active.mpr ⟨h0, hb⟩) (by rw [hplace, hkeep]) hout
        (by simpa [hall] using ha)
  · obtain ⟨hnot, hnotPrompt⟩ := hf.off_active (by simp [hd])
    rw [if_neg (by simp [hd])] at hst hactive hprompt
    refine fits_dozing hn h0 (by rw [hst, hd]) (hactive ▸ hnot) (hprompt ▸ hnotPrompt) fun hm => ?_
    rw [hall, Bool.eq_false_iff]
    intro ha
    rw [hpoll, if_pos ⟨h0, hd, ha⟩] at hm
    exact (h.pollOnce.mem_erase_iff.mp hm).1 rfl

/-- A lane whose last entry has gone (R3). -/
theorem State.Agrees.emptied (hr : s.Relaid u i l []) (hl : s.lane i l ≠ []) : (u.laneEmpty i l).Agrees os := by
  have hfit := h.emptied_fits hr hl
  have hi := lt_of_lane_ne_nil hl
  obtain ⟨hlanes, hstations, hsel, hmode⟩ := hr
  have hsub : (u.laneEmpty i l).sel.poll.Sublist s.sel.poll := by
    rw [laneEmpty_poll, hsel]
    split
    · exact List.erase_sublist
    · exact List.Sublist.refl _
  refine h.of_local (fun j hj => ⟨⟨?_, fun k => ?_, ?_, ?_, fun hm => hsub.subset hm, by simp [hmode]⟩, ?_⟩) hfit
    ⟨?_, ?_, h.pollOnce.sublist hsub⟩ (fun j hj => hsub.subset hj) (by simp [hsel]) (fun _ _ => rfl) h.groupOrders
  · rw [laneEmpty_station _ _ _ _ hi, if_neg (fun e => hj e.1), hstations]
  · simp only [laneEmpty_keeps, hlanes, hj, false_and, if_false]
  · rw [laneEmpty_active, hsel]
    split <;> simp [List.mem_erase_of_ne hj]
  · rw [laneEmpty_prompt, hsel]
    split <;> simp [List.mem_erase_of_ne hj]
  · rw [laneEmpty_station _ _ _ _ hi, if_neg (fun e => hj e.1), hstations]
  · rw [laneEmpty_active, hsel]
    split
    · exact h.activeOnce.erase _
    · exact h.activeOnce
  · rw [laneEmpty_prompt, hsel]
    split
    · exact h.promptOnce.erase _
    · exact h.promptOnce

/-- A station in service whose lane has received an entry where it had none (R3). -/
theorem State.Agrees.filled_fits (hr : s.Relaid u i l q) (hq : q ≠ [])
    (hs : (s.station i).state ≠ .vacant ∧ (s.station i).state ≠ .leaving) (hg : i = 0 → l = .bulk) :
    (u.laneNonempty i l).Fits os i := by
  have hf := h.fits i
  obtain ⟨hlanes, hstations, hsel, hmode⟩ := hr
  have hself : u.lane i l = q := by simp [hlanes]
  have hul : u.lane i l ≠ [] := hself ▸ hq
  have hst := laneNonempty_station u i i l (lt_of_lane_ne_nil hul)
  have hactive := laneNonempty_active_joins u i l
  have hprompt := laneNonempty_prompt_joins u i l
  have hpoll : (u.laneNonempty i l).sel.poll = s.sel.poll := by simp [hsel]
  simp only [hstations, hsel, true_and] at hst hactive hprompt
  have hn : ((u.laneNonempty i l).station i).inFlight = naming os i := by
    rw [hst]
    split <;> exact hf.inFlight
  have hfull : ((u.laneNonempty i l).lanesOf i).allEmpty = false := by
    simpa using allEmpty_of_lane hul
  by_cases h0 : i = 0
  · obtain ⟨hstate, hp, hk⟩ := hf.group h0
    rw [if_neg (fun e => e.1 h0)] at hst hactive hprompt
    refine fits_group hn h0 ?_ ?_ ?_ fun hv => absurd (hst ▸ hv) hs.1
    · rw [hst, hstate]
      simp [hmode]
    · rw [hactive, hprompt, hpoll]
      exact hf.off_of_state (.inl h0) (.inl h0)
    · simp [hlanes, hg h0, hp, hk]
  have hplace : (s.station i).state = .idle ∨ (s.station i).state = .backlogged →
      (i ∈ (u.laneNonempty i l).sel.prompt ↔ (u.laneNonempty i l).lane i .prompt ≠ []) := fun hib => by
    have hkeep : (u.laneNonempty i l).lane i .prompt = u.lane i .prompt := by simp
    rw [hprompt, hkeep]
    by_cases e : l = .prompt
    · rw [if_pos ⟨h0, e, hib⟩]
      exact iff_of_true (mem_joinTail.mpr (.inr rfl)) (e ▸ hul)
    · rw [if_neg (fun c => e c.2.1), hf.prompt, hlanes, if_neg (fun c => e c.2.symm)]
      refine ⟨fun c => c.2.2, fun c => ⟨h0, hib.resolve_left fun hidle => c ?_, c⟩⟩
      exact (allEmpty_iff_lane s i).mp (hf.idle h0 hidle) .prompt
  cases hstate : (s.station i).state with
  | vacant => exact absurd hstate hs.1
  | leaving => exact absurd hstate hs.2
  | idle =>
    rw [if_pos ⟨h0, hstate⟩] at hst hactive
    exact fits_backlogged hn h0 (by rw [hst]; rfl) (hactive ▸ mem_joinTail.mpr (.inr rfl)) (hplace (.inl hstate))
      (hpoll ▸ hf.off_poll (by simp [hstate])) hfull
  | backlogged =>
    rw [if_neg (by simp [hstate])] at hst hactive
    exact fits_backlogged hn h0 (by rw [hst, hstate]) (hactive ▸ hf.active.mpr ⟨h0, hstate⟩) (hplace (.inr hstate))
      (hpoll ▸ hf.off_poll (by simp [hstate])) hfull
  | dozing =>
    obtain ⟨hnot, hnotPrompt⟩ := hf.off_active (by simp [hstate])
    rw [if_neg (by simp [hstate])] at hst hactive hprompt
    exact fits_dozing hn h0 (by rw [hst, hstate]) (hactive ▸ hnot) (hprompt ▸ hnotPrompt) fun _ => hfull

/-- A lane that has received an entry where it had none, of a station in service (R3). -/
theorem State.Agrees.filled (hr : s.Relaid u i l q) (hq : q ≠ [])
    (hs : (s.station i).state ≠ .vacant ∧ (s.station i).state ≠ .leaving) (hg : i = 0 → l = .bulk) :
    (u.laneNonempty i l).Agrees os := by
  have hfit := h.filled_fits hr hq hs hg
  obtain ⟨hlanes, hstations, hsel, hmode⟩ := hr
  have hi : i < 512 := lt_of_lane_ne_nil (s := u) (l := l) (by simpa [hlanes] using hq)
  refine h.of_local (fun j hj => ⟨⟨?_, fun k => ?_, ?_, ?_, by simp [hsel], by simp [hmode]⟩, ?_⟩) hfit
    ⟨?_, ?_, by simpa [hsel] using h.pollOnce⟩ (by simp [hsel]) (by simp [hsel]) (fun _ _ => rfl) h.groupOrders
  · rw [laneNonempty_station _ _ _ _ hi, if_neg (fun e => hj e.1), hstations]
  · simp only [laneNonempty_keeps, hlanes, hj, false_and, if_false]
  · rw [laneNonempty_active_joins, hsel]
    split <;> simp [mem_joinTail, hj]
  · rw [laneNonempty_prompt_joins, hsel]
    split <;> simp [mem_joinTail, hj]
  · rw [laneNonempty_station _ _ _ _ hi, if_neg (fun e => hj e.1), hstations]
  · rw [laneNonempty_active_joins, hsel]
    split
    · exact joinTail_nodup i h.activeOnce
    · exact h.activeOnce
  · rw [laneNonempty_prompt_joins, hsel]
    split
    · exact joinTail_nodup i h.promptOnce
    · exact h.promptOnce

end
end Sys2Proof.Machine
end

section
/-!
StepKeepsTheLists: what the operations of FPL and STT do to the agreement of the lists (R3, R27, R31, R32, R36, R38).
-/
namespace Sys2Proof.Machine

/-! ## Records whose state and in_flight stay -/

section
variable (s : State) (i : Nat)

theorem updStation_service (k : Nat) {f : Station → Station}
    (hf : ∀ x, (f x).state = x.state ∧ (f x).inFlight = x.inFlight) :
    ((s.updStation k f).station i).state = (s.station i).state
      ∧ ((s.updStation k f).station i).inFlight = (s.station i).inFlight := by
  rw [updStation_station]
  split
  · exact hf _
  · exact ⟨rfl, rfl⟩

theorem mapStations_service {t : State} (f : Nat → Station → Station)
    (ht : t.stt.stations = s.stt.stations.mapIdx f)
    (hf : ∀ k x, (f k x).state = x.state ∧ (f k x).inFlight = x.inFlight) :
    (t.station i).state = (s.station i).state ∧ (t.station i).inFlight = (s.station i).inFlight := by
  unfold State.station
  rw [ht, Table.get_mapIdx]
  split
  · exact hf _ _
  · exact ⟨rfl, rfl⟩

@[simp] theorem correctStation_service (k : Nat) (d : Int) :
    ((s.correctStation k d).station i).state = (s.station i).state
      ∧ ((s.correctStation k d).station i).inFlight = (s.station i).inFlight :=
  updStation_service s i k fun _ => ⟨rfl, rfl⟩

@[simp] theorem updateRate_service (k q : Nat) : ((s.updateRate k q).station i).state = (s.station i).state
    ∧ ((s.updateRate k q).station i).inFlight = (s.station i).inFlight := by
  unfold State.updateRate
  split
  · exact ⟨rfl, rfl⟩
  · exact updStation_service s i k fun _ => ⟨rfl, rfl⟩

@[simp] theorem countLost_service (k n : Nat) : ((s.countLost k n).station i).state = (s.station i).state
    ∧ ((s.countLost k n).station i).inFlight = (s.station i).inFlight :=
  updStation_service s i k fun _ => ⟨rfl, rfl⟩

@[simp] theorem countFrames_service (k d f : Nat) : ((s.countFrames k d f).station i).state = (s.station i).state
    ∧ ((s.countFrames k d f).station i).inFlight = (s.station i).inFlight :=
  updStation_service s i k fun _ => ⟨rfl, rfl⟩

@[simp] theorem applyStagedStations_service : (s.applyStagedStations.station i).state = (s.station i).state
    ∧ (s.applyStagedStations.station i).inFlight = (s.station i).inFlight :=
  mapStations_service s i (fun _ x => x.applyStaged) rfl fun _ _ => ⟨rfl, rfl⟩

@[simp] theorem clearStationUsage_service : (s.clearStationUsage.station i).state = (s.station i).state
    ∧ (s.clearStationUsage.station i).inFlight = (s.station i).inFlight :=
  mapStations_service s i (fun _ x => { x with usedRound := 0 }) rfl fun _ _ => ⟨rfl, rfl⟩

@[simp] theorem refillStations_service (pool : Nat) : ((s.refillStations pool).station i).state = (s.station i).state
    ∧ ((s.refillStations pool).station i).inFlight = (s.station i).inFlight :=
  mapStations_service s i
    (fun k x => x.refill s.mod.config pool s.weightSum (decide (k ∈ s.sel.active)) k) rfl fun _ x => by
    unfold Station.refill
    split
    · exact ⟨rfl, rfl⟩
    · split <;> exact ⟨rfl, rfl⟩

@[simp] theorem reclampStations_service : (s.reclampStations.station i).state = (s.station i).state
    ∧ (s.reclampStations.station i).inFlight = (s.station i).inFlight :=
  mapStations_service s i (fun k x => x.reclamp s.mod.config k) rfl fun _ _ => ⟨rfl, rfl⟩

@[simp] theorem softResetStations_service : (s.softResetStations.station i).state = (s.station i).state
    ∧ (s.softResetStations.station i).inFlight = (s.station i).inFlight :=
  mapStations_service s i (fun _ x => x.softReset s.mod.config) rfl fun _ x => by
    unfold Station.softReset
    split <;> exact ⟨rfl, rfl⟩

@[simp] theorem membershipAfter_service (b : Coh) : ((s.membershipAfter b).station i).state = (s.station i).state
    ∧ ((s.membershipAfter b).station i).inFlight = (s.station i).inFlight := by
  unfold State.membershipAfter
  split
  · exact ⟨rfl, rfl⟩
  · exact mapStations_service s i (fun k x => { x with cohort := memberOf s.coh.cohorts.rows k }) rfl
      fun _ _ => ⟨rfl, rfl⟩

@[simp] theorem applyStagedCohorts_service : (s.applyStagedCohorts.station i).state = (s.station i).state
    ∧ (s.applyStagedCohorts.station i).inFlight = (s.station i).inFlight := by
  simp [State.applyStagedCohorts]

@[simp] theorem enterReady_service : (s.enterReady.station i).state = (s.station i).state
    ∧ (s.enterReady.station i).inFlight = (s.station i).inFlight := by
  simp [State.enterReady]

@[simp] theorem beginRound_service : (s.beginRound.station i).state = (s.station i).state
    ∧ (s.beginRound.station i).inFlight = (s.station i).inFlight := by
  simp [State.beginRound, State.formFigures]

@[simp] theorem boundaryZero_service : (s.boundaryZero.station i).state = (s.station i).state
    ∧ (s.boundaryZero.station i).inFlight = (s.station i).inFlight := by
  simp [State.boundaryZero]

end

/-! ## Lanes and frames -/

/-- A station that is not VACANT has an index of 511 at most (R1). -/
theorem lt_of_not_vacant {s : State} {i : Nat} (hs : (s.station i).state ≠ .vacant) : i < 512 := by
  by_contra hi
  rw [station_of_le s (by omega)] at hs
  exact hs rfl

/-- The station of an accepted frame is in service (R27). -/
theorem service_of_frameRefusal_none {s : State} {f : FrameFields} (h : s.frameRefusal f = none) :
    (s.station f.station).state ≠ .vacant ∧ (s.station f.station).state ≠ .leaving := by
  obtain ⟨l, hl⟩ : ∃ l, l = if f.station = 0 then Lane.bulk else (laneOf f.lane).getD .bulk := ⟨_, rfl⟩
  rw [frameRefusal_checks s f l hl] at h
  split_ifs at h with _ hs
  exact not_or.mp hs

/-- A frame for station 0 goes to its BULK lane (R27, R28). -/
theorem frameLane_group (f : FrameFields) (h0 : f.station = 0) : (frameLane f).getD .bulk = .bulk := by
  unfold frameLane
  cases laneOf f.lane <;> simp [h0]

namespace State.Agrees
variable {s : State} {os : List Order} (h : s.Agrees os)
include h

theorem returnLane (i : Nat) (x : FrameResult) (l : Lane) : (s.returnLane i x l).Agrees os := by
  unfold State.returnLane
  split
  · exact h
  · rename_i hl
    exact h.emptied (relaid_of_setLane (lt_of_lane_ne_nil hl) rfl rfl rfl rfl) hl

theorem returnLanes (i : Nat) (x : FrameResult) (ls : List Lane) : (s.returnLanes i x ls).Agrees os := by
  induction ls generalizing s with
  | nil => exact h
  | cons l ls ih => exact ih (h.returnLane i x l)

theorem flushAll : s.flushAll.Agrees os := by
  rw [flushAll_eq]
  generalize List.range 512 = is
  induction is generalizing s with
  | nil => exact h
  | cons i is ih => exact ih (h.returnLanes i _ _)

/-- A lane left with the entries `q` by a departure (R3). -/
theorem departure {u : State} {i : Nat} {l : Lane} {q : List Frame} (hr : s.Relaid u i l q) (hl : s.lane i l ≠ []) :
    (if q.isEmpty then u.laneEmpty i l else u).Agrees os := by
  split
  · rename_i hq
    obtain rfl := List.isEmpty_iff.mp hq
    exact h.emptied hr hl
  · rename_i hq
    exact h.relaid hr (iff_of_false (by simpa using hq) hl)

/-- A lane of a station in service that an arrival leaves with the entries `q` (R3). -/
theorem arrival {u : State} {i : Nat} {l : Lane} {q : List Frame} (hr : s.Relaid u i l q) (hq : q ≠ [])
    (hs : (s.station i).state ≠ .vacant ∧ (s.station i).state ≠ .leaving) (hg : i = 0 → l = .bulk) :
    (if (s.lane i l).isEmpty then u.laneNonempty i l else u).Agrees os := by
  split
  · exact h.filled hr hq hs hg
  · rename_i hl
    exact h.relaid hr (iff_of_false hq (by simpa using hl))

theorem takeFrames {i : Nat} {l : Lane} (n : Nat) (hl : s.lane i l ≠ []) : (s.takeFrames i l n).Agrees os :=
  h.departure (relaid_of_setLane (lt_of_lane_ne_nil hl) rfl rfl rfl rfl) hl

theorem acceptFrame (f : Frame)
    (hs : (s.station f.station).state ≠ .vacant ∧ (s.station f.station).state ≠ .leaving)
    (hg : f.station = 0 → f.lane = .bulk) : (s.acceptFrame f).Agrees os :=
  h.arrival (relaid_of_setLane (lt_of_not_vacant hs.1) rfl rfl rfl rfl) (by simp) hs hg

theorem offerFrame (f : FrameFields) : (s.offerFrame f).1.Agrees os := by
  unfold State.offerFrame
  split
  · exact h.congr (by simp [State.lane, State.lanesOf])
  · rename_i hf
    exact h.acceptFrame _ (service_of_frameRefusal_none hf) (frameLane_group f)

theorem offerFrames (fs : List FrameFields) : (s.offerFrames fs).1.Agrees os := by
  induction fs generalizing s with
  | nil => exact h
  | cons f fs ih =>
    rw [offerFrames_cons]
    exact ih (h.offerFrame f)

theorem requeueFrames {i : Nat} {l : Lane} (fs : List Frame)
    (hs : fs ≠ [] → (s.station i).state ≠ .vacant ∧ (s.station i).state ≠ .leaving) (hg : i = 0 → l = .bulk) :
    (s.requeueFrames i l fs).Agrees os := by
  unfold State.requeueFrames
  split
  · exact h
  · rename_i hne
    have hs := hs (by simpa using hne)
    exact h.arrival (relaid_of_setLane (lt_of_not_vacant hs.1) rfl rfl rfl rfl) (by simp_all) hs hg

theorem expireFrame (r : ExpiryRef) : (s.expireFrame r).Agrees os := by
  unfold State.expireFrame
  dsimp only
  split
  · exact h.congr (by simp [State.lane, State.lanesOf])
  · rename_i f hf
    have hl : s.lane r.station r.lane ≠ [] := List.ne_nil_of_mem (List.mem_of_find?_eq_some hf)
    exact h.departure (relaid_of_setLane (lt_of_lane_ne_nil hl) rfl rfl rfl rfl) hl

/-- A station that an order names is not VACANT (R17). -/
theorem not_vacant {o : Order} (ho : o ∈ os) : (s.station o.station).state ≠ .vacant := fun hv => by
  have hnone := (h.fits o.station).vacant hv
  rw [(h.fits o.station).inFlight] at hnone
  exact List.countP_eq_zero.mp hnone o ho (by simp)

/-- The undelivered frames of an order: none is requeued to a LEAVING station (R8, R126, R131). -/
theorem concludeFrames {o : Order} (ho : o ∈ os) (x : FrameResult) (fs : List Frame) :
    (s.concludeFrames o x fs).Agrees os := by
  unfold State.concludeFrames
  dsimp only
  refine State.Agrees.congr (h.requeueFrames (l := o.lane) (fs.filter fun f => (frameFate s.mod.config
    ((s.station o.station).state == .leaving) s.rck.deviceTime x f).isNone)
    (fun hne => ⟨h.not_vacant ho, fun hl => hne ?_⟩) (h.groupOrders o ho)) (by simp)
  simp [hl, frameFate]

end State.Agrees
end Sys2Proof.Machine
end

section
/-!
StepKeepsTheLists: the runs of SEL, which move stations within the lists (R106 to R111), and the orders of ORD, which
in_flight counts (R17, R118 to R138).
-/
namespace Sys2Proof.Machine

/-! ## Selection runs -/

/-- What each of the five steps chooses, and the one list that it moves (R107 to R111). -/
theorem pick_moves {s : State} {p : Picked} (h : s.pick = some p) :
    (p.choice.station = 0 ∧ p.sel = s.sel)
      ∨ (∃ rest, s.sel.poll = p.choice.station :: rest ∧ p.sel = { s.sel with poll := rest })
      ∨ (p.choice.station ∈ s.sel.prompt ∧ p.sel = { s.sel with
          prompt := s.sel.prompt.erase p.choice.station ++ [p.choice.station] })
      ∨ (p.choice.station ∈ s.sel.active ∧ p.sel = { s.sel with
          active := rotatePast s.sel.active p.choice.station }) := by
  have hscan : ∀ {b k}, s.scan b k = some p → p.choice.station ∈ s.sel.active ∧ p.sel = { s.sel with
      active := rotatePast s.sel.active p.choice.station } := fun {b k} e => by
    simp only [State.scan, Option.bind_eq_some_iff, Option.map_eq_some_iff] at e
    obtain ⟨i, hi, l, -, rfl⟩ := e
    exact ⟨List.mem_of_find?_eq_some hi, rfl⟩
  simp only [pick_eq, Option.or_eq_some_iff] at h
  rcases h with hg | ⟨-, hq | ⟨-, hp | ⟨-, hf | ⟨-, hs⟩⟩⟩⟩
  · left
    unfold State.groupStep at hg
    split at hg <;> cases hg
    exact ⟨rfl, rfl⟩
  · right; left
    unfold State.pollStep at hq
    split at hq
    · cases hq
    · rename_i i rest hpoll
      obtain ⟨l, -, rfl⟩ := Option.map_eq_some_iff.mp hq
      exact ⟨rest, hpoll, rfl⟩
  · right; right; left
    unfold State.promptStep at hp
    split at hp
    · obtain ⟨i, hi, rfl⟩ := Option.map_eq_some_iff.mp hp
      exact ⟨List.mem_of_find?_eq_some hi, rfl⟩
    · cases hp
  · exact .inr (.inr (.inr (hscan hf)))
  · unfold State.spillPass at hs
    split at hs
    · exact .inr (.inr (.inr (hscan hs)))
    · cases hs

theorem rotatePast_perm {ring : List Nat} {i : Nat} (hn : ring.Nodup) (hi : i ∈ ring) :
    (rotatePast ring i).Perm ring := by
  obtain ⟨pre, post, rfl⟩ := List.append_of_mem hi
  rw [rotatePast_split hn, List.append_assoc]
  exact List.perm_append_comm.trans (by simp)

theorem naming_append (os ps : List Order) (i : Nat) : naming (os ++ ps) i = naming os i + naming ps i :=
  List.countP_append

theorem naming_singleton (o : Order) (i : Nat) : naming [o] i = if o.station = i then 1 else 0 := by
  simp [naming, List.countP_cons]

theorem naming_middle (pre post : List Order) (o : Order) (i : Nat) :
    naming (pre ++ o :: post) i = naming (pre ++ post) i + if o.station = i then 1 else 0 := by
  rw [List.append_cons, naming_append, naming_append, naming_append, naming_singleton]
  omega

namespace State.Agrees
variable {s : State} {os : List Order} (h : s.Agrees os)
include h

/-- A run moves stations within their lists, or takes the head of the poll list (R106 to R111). -/
theorem moved {e : Sel} {c : Choice} (hactive : e.active.Perm s.sel.active) (hprompt : e.prompt.Perm s.sel.prompt)
    (hpoll : e.poll.Sublist s.sel.poll) (hc : c.station ∉ e.poll) :
    ({ s with sel := { e with choice := some c } } : State).Agrees os := by
  refine ⟨hactive.nodup_iff.mpr h.activeOnce, hprompt.nodup_iff.mpr h.promptOnce, h.pollOnce.sublist hpoll,
    fun i => ?_, fun d hd => ?_, h.groupOrders⟩
  · exact (h.fits i).congr ⟨⟨rfl, fun _ => Iff.rfl, hactive.mem_iff, hprompt.mem_iff, fun hm => hpoll.subset hm,
      fun _ => Iff.rfl⟩, rfl⟩ rfl
  · cases hd
    exact hc

theorem selectionRun : s.selectionRun.Agrees os := by
  by_cases ho : s.RunOpen
  · cases hp : s.pick with
    | none =>
      rw [selectionRun_of_no_pick hp]
      exact h
    | some p =>
      rw [selectionRun_of_pick ho hp]
      have hfits := h.fits p.choice.station
      rcases pick_moves hp with ⟨h0, he⟩ | ⟨rest, hq, he⟩ | ⟨hm, he⟩ | ⟨hm, he⟩ <;> rw [he]
      · exact h.moved (.refl _) (.refl _) (.refl _) (hfits.off_of_state (.inl h0) (.inl h0)).2.2
      · have hnot := h.pollOnce
        rw [hq, List.nodup_cons] at hnot
        exact h.moved (.refl _) (.refl _) (hq ▸ List.sublist_cons_self _ _) hnot.1
      · have hb := (hfits.prompt.mp hm).2.1
        refine h.moved (.refl _) ?_ (.refl _) (hfits.off_poll (by simp [hb]))
        exact (List.perm_append_singleton _ _).trans (List.perm_cons_erase hm).symm
      · have hb := (hfits.active.mp hm).2
        exact h.moved (rotatePast_perm h.activeOnce hm) (.refl _) (.refl _) (hfits.off_poll (by simp [hb]))
  · rw [selectionRun_of_not_open ho]
    exact h

/-! ## Orders -/

/-- What the agreement reads of the orders: the stations and lanes that they name. -/
theorem congr_orders {ps : List Order} (hu : ps.map Order.unsent = os.map Order.unsent) : s.Agrees ps := by
  have hn : ∀ i, naming ps i = naming os i := fun i => by
    have hstations := map_eq_of_unsent Order.station (fun _ => rfl) hu
    have hcount : ∀ qs : List Order, naming qs i = (qs.map Order.station).count i := fun qs => by
      rw [List.count, List.countP_map]
      rfl
    rw [hcount, hcount, hstations]
  refine ⟨h.activeOnce, h.promptOnce, h.pollOnce, fun i => ?_, h.choice, fun o ho h0 => ?_⟩
  · exact (h.fits i).congr ⟨⟨rfl, fun _ => Iff.rfl, Iff.rfl, Iff.rfl, id, fun _ => Iff.rfl⟩, rfl⟩ (hn i)
  · obtain ⟨p, hp, he⟩ := List.mem_map.mp (hu ▸ List.mem_map_of_mem (f := Order.unsent) ho)
    have hsame : o.station = p.station ∧ o.lane = p.lane := by
      have h1 : p.unsent.station = o.unsent.station := by rw [he]
      have h2 : p.unsent.lane = o.unsent.lane := by rw [he]
      exact ⟨h1.symm, h2.symm⟩
    rw [hsame.2]
    exact h.groupOrders p hp (hsame.1 ▸ h0)

/-- An order of a station in service is issued (R17, R122). -/
theorem recorded {t : State} {o : Order} (hkeep : ∀ i, s.SameSeat t i)
    (hlists : t.sel.active = s.sel.active ∧ t.sel.prompt = s.sel.prompt ∧ t.sel.poll = s.sel.poll
      ∧ t.sel.choice = s.sel.choice)
    (hfly : ∀ i, (t.station i).inFlight = (s.station i).inFlight + if o.station = i then 1 else 0)
    (hs : (s.station o.station).state ≠ .vacant) (hg : o.station = 0 → o.lane = .bulk) : t.Agrees (os ++ [o]) := by
  obtain ⟨hactive, hprompt, hpoll, hchoice⟩ := hlists
  refine ⟨hactive ▸ h.activeOnce, hprompt ▸ h.promptOnce, hpoll ▸ h.pollOnce, fun i => ?_, ?_, fun p hp => ?_⟩
  · refine (h.fits i).recount (hkeep i) ?_ (fun hv => ?_) fun hl => ?_
    · rw [hfly, (h.fits i).inFlight, naming_append, naming_singleton]
    · rw [hfly, (h.fits i).vacant hv, if_neg]
      rintro rfl
      exact hs hv
    · have := (h.fits i).leaving hl
      rw [hfly]
      omega
  · rw [hchoice, hpoll]
    exact h.choice
  · rcases List.mem_append.mp hp with hp | hp
    · exact h.groupOrders p hp
    · rw [List.mem_singleton.mp hp]
      exact hg

/-- A station with one order fewer: LEAVING with none left, it is cleared (R8, R17). -/
theorem lowered_fits {i : Nat} {ps : List Order} (hcount : naming os i = naming ps i + 1) :
    (s.lowerInFlight i).Fits ps i := by
  have hf := h.fits i
  have hself := lowerInFlight_any s i i
  rw [← hf.inFlight] at hcount
  by_cases hgone : (s.station i).state = .leaving ∧ (s.station i).inFlight ≤ 1
  · have h0 : i ≠ 0 := fun h0 => by
      have hstate := (hf.group h0).1
      rw [hgone.1] at hstate
      split at hstate <;> cases hstate
    have hoff := hf.off_of_state (.inr (by simp [hgone.1])) (.inr (by simp [hgone.1]))
    rw [if_pos ⟨rfl, hgone⟩] at hself
    refine fits_bare ?_ h0 (by simp [hself, Station.cleared]) (by simpa using hoff)
      (by simpa using hf.gone (.inr hgone.1)) (by simp [hself, Station.cleared]) (by simp [hself, Station.cleared])
    have hnone : naming ps i = 0 := by omega
    rw [hself, hnone]
    rfl
  · rw [if_neg (fun e => hgone e.2), if_pos rfl] at hself
    have hfly : ((s.lowerInFlight i).station i).inFlight = (s.station i).inFlight - 1 := by rw [hself]
    refine hf.recount ⟨by rw [hself], by simp, by simp, by simp, by simp, by simp⟩ (by omega) (fun hv => ?_)
      fun hl => ?_
    · have := hf.vacant hv
      omega
    · have : ¬ (s.station i).inFlight ≤ 1 := fun h1 => hgone ⟨hl, h1⟩
      omega

/-- An order is concluded: its station alone has one order fewer (R17). -/
theorem lowerInFlight {o : Order} {pre post : List Order} (ho : os = pre ++ o :: post) :
    (s.lowerInFlight o.station).Agrees (pre ++ post) := by
  have hn : ∀ i, naming os i = naming (pre ++ post) i + if o.station = i then 1 else 0 := fun i => by
    rw [ho, naming_middle]
  have hgroup : ∀ p ∈ pre ++ post, p.station = 0 → p.lane = .bulk := fun p hp => by
    refine h.groupOrders p ?_
    rw [ho]
    simp only [List.mem_append, List.mem_cons] at hp ⊢
    tauto
  have hother : ∀ j, j ≠ o.station → (s.lowerInFlight o.station).station j = s.station j := fun j hj => by
    rw [lowerInFlight_any, if_neg (fun e => hj e.1.symm), if_neg (Ne.symm hj)]
  refine h.of_local (i := o.station) (fun j hj => ?_) (h.lowered_fits (by rw [hn, if_pos rfl]))
    (by simpa using ⟨h.activeOnce, h.promptOnce, h.pollOnce⟩) (by simp) (by simp) (fun j hj => ?_) hgroup
  · exact ⟨⟨by rw [hother j hj], by simp, by simp, by simp, by simp, by simp⟩, by rw [hother j hj]⟩
  · rw [hn, if_neg (Ne.symm hj)]
    rfl

end State.Agrees
end Sys2Proof.Machine
end

section
/-!
StepKeepsTheLists: builds, conclusions and cancellations on ListInv itself (R105, R121, R122, R125, R131, R137).
-/
namespace Sys2Proof.Machine

/-! ## Builds -/

/-- A take may make a station IDLE; it makes none VACANT (R3). -/
theorem takeFrames_not_vacant {s : State} {i : Nat} (l : Lane) (n j : Nat) (hs : (s.station j).state ≠ .vacant)
    (hi : i < 512) : ((s.takeFrames i l n).station j).state ≠ .vacant := by
  unfold State.takeFrames
  dsimp only
  split
  · rw [laneEmpty_station _ _ _ _ hi]
    split
    · simp
    · exact hs
  · exact hs

theorem chargeIssue_lists (s : State) (i : Nat) (co : Option Nat) (k : Kind) (est : Nat) :
    (s.chargeIssue i co k est).sel.active = s.sel.active ∧ (s.chargeIssue i co k est).sel.prompt = s.sel.prompt
      ∧ (s.chargeIssue i co k est).sel.poll = s.sel.poll ∧ (s.chargeIssue i co k est).sel.choice = s.sel.choice := by
  rw [chargeIssue_sel]
  exact ⟨rfl, rfl, rfl, rfl⟩

theorem State.Agrees.issueOrder {s : State} {os : List Order} (h : s.Agrees os) {c : Choice} (fs : List Frame)
    (hl : s.lane c.station c.lane ≠ []) (est : Nat) (co : Option Nat) :
    (s.issueOrder c fs).Agrees (os ++ [s.orderRecord c fs est co]) := by
  have hi := lt_of_lane_ne_nil hl
  have hs : (s.station c.station).state ≠ .vacant := fun hv =>
    hl ((allEmpty_iff_lane s _).mp ((h.fits c.station).gone (.inl hv)) c.lane)
  have hg : c.station = 0 → c.lane = .bulk := fun h0 => by
    obtain ⟨-, hp, hk⟩ := (h.fits c.station).group h0
    cases hc : c.lane with
    | bulk => rfl
    | prompt => exact absurd hp (hc ▸ hl)
    | slack => exact absurd hk (hc ▸ hl)
  have htake := h.takeFrames fs.length hl
  have hcharged : ∀ j, ((s.issueOrder c fs).station j)
      = ((s.takeFrames c.station c.lane fs.length).chargeIssue c.station (s.station c.station).cohort c.kind
        (estimate s.mod.config (s.orderRate c.station) fs)).station j := fun j => by
    rw [issueOrder_eq, (serveOrders_recordOrder_keeps _ _).1]
  have hfly : ∀ j, ((s.issueOrder c fs).station j).state = ((s.takeFrames c.station c.lane fs.length).station j).state
      ∧ ((s.issueOrder c fs).station j).inFlight
        = ((s.takeFrames c.station c.lane fs.length).station j).inFlight + if c.station = j then 1 else 0 := fun j => by
    rw [hcharged]
    by_cases hj : j = c.station
    · subst hj
      rw [chargeIssue_station _ _ _ _ _ hi]
      simp
    · rw [chargeIssue_station_of_ne _ _ _ _ _ hj, if_neg (Ne.symm hj)]
      exact ⟨rfl, rfl⟩
  have hkeep : (s.issueOrder c fs).fpl = (s.takeFrames c.station c.lane fs.length).fpl
      ∧ (s.issueOrder c fs).sel.active = (s.takeFrames c.station c.lane fs.length).sel.active
      ∧ (s.issueOrder c fs).sel.prompt = (s.takeFrames c.station c.lane fs.length).sel.prompt
      ∧ (s.issueOrder c fs).sel.poll = (s.takeFrames c.station c.lane fs.length).sel.poll
      ∧ (s.issueOrder c fs).sel.choice = (s.takeFrames c.station c.lane fs.length).sel.choice := by
    rw [issueOrder_eq]
    simp [State.recordOrder, chargeIssue_keeps, chargeIssue_lists]
  obtain ⟨hfpl, hactive, hprompt, hpoll, hchoice⟩ := hkeep
  refine htake.recorded (o := s.orderRecord c fs est co) (fun j => ⟨(hfly j).1, fun k => ?_, by rw [hactive],
    by rw [hprompt], by rw [hpoll]; exact id, by simp⟩) ⟨hactive, hprompt, hpoll, hchoice⟩
    (fun j => (hfly j).2) (takeFrames_not_vacant c.lane fs.length c.station hs hi) hg
  rw [lane_congr (congrArg Fpl.lanes hfpl)]

/-! ## ListInv, carried on -/

/-- The lists, and the orders apart from their sent fields, are the same in `t` as in `s`. -/
@[simp] def State.SameRoll (s t : State) : Prop :=
  s.SameLists t ∧ t.ord.outstanding.map Order.unsent = s.ord.outstanding.map Order.unsent

theorem State.Agrees.listInv {s : State} {os : List Order} (h : s.Agrees os)
    (ho : s.ord.outstanding.map Order.unsent = os.map Order.unsent) : s.ListInv :=
  (listInv_iff s).mpr (h.congr_orders ho)

/-- An operation that leaves the orders as they are. -/
theorem State.Agrees.carry {s t : State} (ht : t.Agrees s.ord.outstanding)
    (ho : t.ord.outstanding = s.ord.outstanding) : t.ListInv :=
  ht.listInv (by rw [ho])

/-- An order's station has one order fewer, and the order's record has gone (R125, R131). -/
theorem State.Agrees.concluded {s u t : State} {o : Order} (hu : u.Agrees s.ord.outstanding)
    (hn : (s.ord.outstanding.map Order.id).Nodup) (ho : o ∈ s.ord.outstanding)
    (he : (u.lowerInFlight o.station).SameLists t)
    (hl : t.ord.outstanding = s.ord.outstanding.filter fun p => p.id != o.id) : t.ListInv := by
  obtain ⟨pre, post, hos⟩ := List.append_of_mem ho
  have hgone : s.ord.outstanding.filter (fun p => p.id != o.id) = pre ++ post := by
    rw [hos]
    refine filter_order_id fun p hp e => ?_
    rw [hos, List.map_append, List.map_cons, List.nodup_middle, List.nodup_cons, ← List.map_append] at hn
    exact hn.1 (e ▸ List.mem_map_of_mem hp)
  exact ((hu.lowerInFlight hos).congr he).listInv (by rw [hl, hgone])

@[simp] theorem applyCorrection_service (s : State) (o : Order) (d : Int) (i : Nat) :
    ((s.applyCorrection o d).station i).state = (s.station i).state
      ∧ ((s.applyCorrection o d).station i).inFlight = (s.station i).inFlight := by
  have hstation : (s.applyCorrection o d).station i = (s.correctStation o.station d).station i := by
    simp [State.applyCorrection]
  rw [hstation]
  exact correctStation_service s i o.station d

theorem State.Agrees.countFrames {s : State} {os : List Order} (h : s.Agrees os) (i done undone : Nat) :
    (s.countFrames i done undone).Agrees os :=
  h.congr (by simp)

theorem State.Agrees.countLost {s : State} {os : List Order} (h : s.Agrees os) (i n : Nat) :
    (s.countLost i n).Agrees os :=
  h.congr (by simp)

theorem State.Agrees.requestCancelAll {s : State} {os : List Order} (h : s.Agrees os) : s.requestCancelAll.Agrees os :=
  h.congr (by simp)

namespace State.ListInv
variable {s : State} (h : s.ListInv)
include h

theorem agrees : s.Agrees s.ord.outstanding :=
  (listInv_iff s).mp h

theorem congr {t : State} (he : s.SameRoll t) : t.ListInv :=
  (h.agrees.congr he.1).listInv he.2

theorem selectionRun : s.selectionRun.ListInv :=
  h.agrees.selectionRun.carry (by simp)

/-- A build takes the choice, issues an order or finds the lane empty, and a run follows (R105, R106, R121). -/
theorem buildOrder : s.buildOrder.ListInv := by
  unfold State.buildOrder
  split
  · exact h
  · rename_i c _
    have htaken : (s.updSel fun e => { e with choice := none }).ListInv := h.congr (by simp)
    refine State.ListInv.selectionRun ?_
    unfold State.buildChoice
    split
    · exact htaken.congr (by simp)
    · rename_i hne
      obtain ⟨est, co, hos⟩ := issueOrder_unsent (s.updSel fun e => { e with choice := none }) c
        (aggregate s.mod.config ((s.updSel fun e => { e with choice := none }).orderRate c.station)
          (frameLimit s.mod.config c.kind) (s.lane c.station c.lane))
      refine (htaken.agrees.issueOrder _ (fun he => hne ?_) est co).listInv ?_
      · rw [he]
        rfl
      · rw [List.map_append]
        exact hos

theorem buildOrders (n : Nat) : (State.buildOrders n s).ListInv := by
  induction n generalizing s with
  | zero => exact h
  | succ n ih =>
    unfold State.buildOrders
    split
    · exact ih h.buildOrder
    · exact h

theorem settle : s.settle.ListInv :=
  (h.buildOrders 8).congr (by simp [State.settle])

theorem acceptOutcome (hn : (s.ord.outstanding.map Order.id).Nodup) {o : Order} (ho : o ∈ s.ord.outstanding)
    (x : Outcome) : (s.acceptOutcome o x).ListInv := by
  have hcorrect : ((((s.applyCorrection o ((o.est : Int) - x.airtime)).updateRate o.station x.finalRate).returnFrames
      (withResult (splitFrames o x).1 .delivered))).Agrees s.ord.outstanding := h.agrees.congr (by simp)
  have hcount := (hcorrect.concludeFrames ho .failed (splitFrames o x).2).countFrames o.station
    (splitFrames o x).1.length (splitFrames o x).2.length
  exact hcount.concluded hn ho (by simp [State.acceptOutcome]) (acceptOutcome_outstanding_eq s o x)

theorem loseOrder (hq : s.ord.quarantine.length ≤ 8) (hn : (s.ord.outstanding.map Order.id).Nodup) {o : Order}
    (ho : o ∈ s.ord.outstanding) : (s.loseOrder o).ListInv := by
  have hgone : ((s.removeOrder o.id).quarantineId o.id).Agrees s.ord.outstanding := h.agrees.congr (by simp)
  have hcount := (hgone.concludeFrames ho .lost o.frames).countLost o.station o.frames.length
  exact hcount.concluded hn ho (by simp [State.loseOrder]) (loseOrder_lists hq o).1

end State.ListInv

theorem State.Agrees.cancelOrder {s : State} {o : Order} {os : List Order} (h : s.Agrees (o :: os)) :
    (s.cancelOrder o).Agrees os := by
  have hreturn : (((s.removeOrder o.id).quarantineId o.id).returnFrames (withResult o.frames .aborted)).Agrees
      (o :: os) :=
    h.congr (by simp)
  exact (hreturn.lowerInFlight (pre := []) rfl).congr (by simp [State.cancelOrder])

theorem State.Agrees.cancelOrders {s : State} (h : s.Agrees s.ord.outstanding) : s.cancelOrders.Agrees [] := by
  have hall : ∀ (os : List Order) (t : State), t.Agrees os → (os.foldl State.cancelOrder t).Agrees [] := by
    intro os
    induction os with
    | nil => exact fun _ ht => ht
    | cons o os ih => exact fun t ht => ih _ ht.cancelOrder
  exact (hall _ s h).requestCancelAll

theorem State.ListInv.cancelOrders {s : State} (h : s.ListInv) (hq : s.ord.quarantine.length ≤ 8) :
    s.cancelOrders.ListInv :=
  h.agrees.cancelOrders.listInv (by rw [(cancelOrders_ord hq).1])

end Sys2Proof.Machine
end

section
/-!
StepKeepsTheLists: the stations that CONFIGURE, ADMIT, RELEASE, DOZE, WAKE and POLL change, one at a time (R2, R4, R7,
R12 to R14).
-/
namespace Sys2Proof.Machine

/-- `q` is the list `p` but for whether index `i` is on it, and holds no index twice. -/
def NearList (i : Nat) (p q : List Nat) : Prop :=
  q.Nodup ∧ ∀ j, j ≠ i → (j ∈ q ↔ j ∈ p)

theorem nearList_self {i : Nat} {p : List Nat} (h : p.Nodup) : NearList i p p :=
  ⟨h, fun _ _ => Iff.rfl⟩

theorem nearList_erase {i : Nat} {p : List Nat} (h : p.Nodup) : NearList i p (p.erase i) :=
  ⟨h.erase i, fun _ hj => List.mem_erase_of_ne hj⟩

theorem nearList_joinTail {i : Nat} {p : List Nat} (h : p.Nodup) : NearList i p (joinTail p i) :=
  ⟨joinTail_nodup i h, fun _ hj => by simp [mem_joinTail, hj]⟩

theorem not_mem_erase {q : List Nat} (i : Nat) (h : q.Nodup) : i ∉ q.erase i := fun hm =>
  (h.mem_erase_iff.mp hm).1 rfl

/-- A station that DOZE, WAKE and POLL are taken of: an admitted client station (R12 to R15). -/
theorem awakeOrDozing_some {s : State} {i : Nat} {x : StationState} (h : s.awakeOrDozing i = some x) :
    i ≠ 0 ∧ i < 512 ∧ (s.station i).state = x := by
  rw [awakeOrDozing_eq] at h
  split at h
  · cases h
  · rename_i hnot
    push Not at hnot
    exact ⟨hnot.1, hnot.2.1, by simpa using h⟩

namespace State.Agrees
variable {s t : State} {os : List Order} {i : Nat} (h : s.Agrees os)
include h

/-- A change of station `i`: its record, its lanes, its places on the lists. -/
theorem of_station (hfit : t.Fits os i) (hstation : ∀ j, j ≠ i → t.station j = s.station j)
    (hlane : ∀ j, j ≠ i → ∀ l, t.lane j l = s.lane j l) (hactive : NearList i s.sel.active t.sel.active)
    (hprompt : NearList i s.sel.prompt t.sel.prompt) (hpoll : NearList i s.sel.poll t.sel.poll)
    (hchoice : ∀ c, t.sel.choice = some c → c.station ∉ t.sel.poll) (hmode : i ≠ 0 → t.mod.mode = s.mod.mode) :
    t.Agrees os := by
  refine ⟨hactive.1, hprompt.1, hpoll.1, fun j => ?_, hchoice, h.groupOrders⟩
  by_cases hj : j = i
  · exact hj ▸ hfit
  · refine (h.fits j).congr ⟨⟨by rw [hstation j hj], fun l => by rw [hlane j hj], hactive.2 j hj, hprompt.2 j hj,
      (hpoll.2 j hj).mp, fun h0 => by rw [hmode fun hi => hj (h0.trans hi.symm)]⟩, by rw [hstation j hj]⟩ rfl

/-- The CONFIGURE that leaves HALTED makes station 0 IDLE (R2, R161). -/
theorem leaveHalted : s.leaveHalted.Agrees os := by
  have hf := h.fits 0
  obtain ⟨-, hp, hk⟩ := hf.group rfl
  have hself : s.leaveHalted.station 0 = Station.groupStation s.mod.config (s.station 0) := by
    simp [State.leaveHalted]
  refine h.of_station (i := 0) ?_ (fun j hj => ?_) (by simp) (by simpa using nearList_self h.activeOnce)
    (by simpa using nearList_self h.promptOnce) (by simpa using nearList_self h.pollOnce) (by simpa using h.choice)
    (fun h0 => absurd rfl h0)
  · refine fits_group ?_ rfl ?_ (by simpa using hf.off_of_state (.inl rfl) (.inl rfl)) (by simpa using ⟨hp, hk⟩) ?_ <;>
      rw [hself]
    · exact hf.inFlight
    · simp [State.leaveHalted, Station.groupStation]
    · simp [Station.groupStation]
  · simp [State.leaveHalted, updStation_station, Ne.symm hj]

/-- ADMIT makes a VACANT station IDLE (R4). -/
theorem admitted (a : AdmitFields) (h0 : a.index ≠ 0) (hv : (s.station a.index).state = .vacant) (hi : a.index < 512) :
    ((s.updStation a.index (Station.admitted s.mod.config a)).formNote (.bind a.index a.address)).Agrees os := by
  have hf := h.fits a.index
  have hself : ((s.updStation a.index (Station.admitted s.mod.config a)).formNote (.bind a.index a.address)).station
      a.index = Station.admitted s.mod.config a (s.station a.index) := by simp [hi]
  refine h.of_station (i := a.index) ?_ (fun j hj => ?_) (by simp) (by simpa using nearList_self h.activeOnce)
    (by simpa using nearList_self h.promptOnce) (by simpa using nearList_self h.pollOnce) (by simpa using h.choice)
    (by simp)
  · refine fits_bare ?_ h0 ?_ (by simpa using hf.off_of_state (.inr (by simp [hv])) (.inr (by simp [hv])))
      (by simpa using hf.gone (.inl hv)) ?_ ?_ <;> rw [hself]
    · exact (hf.vacant hv).symm.trans hf.inFlight
    · simp [Station.admitted]
    · simp [Station.admitted]
    · simp [Station.admitted]
  · simp [updStation_station, Ne.symm hj]

/-- RELEASE makes a client station VACANT, or LEAVING while orders are in flight, and returns its frames (R7, R40). -/
theorem release (h0 : i ≠ 0) (hi : i < 512) :
    ((s.releaseStation i).returnLanes i .released allLanes).Agrees os := by
  obtain ⟨hgone, hleaving, hother, hsel, hb, hd⟩ := releaseStation_spec s i hi
  obtain ⟨hstt, hlists, -⟩ := returnLanes_quiet allLanes (s.releaseStation i) i .released h0 hb hd
  have hstation : ∀ j, ((s.releaseStation i).returnLanes i .released allLanes).station j
      = (s.releaseStation i).station j := fun j => by simp [State.station, hstt]
  have hlane := returnLanes_lane (s.releaseStation i) i
  rw [hsel] at hlists
  refine h.of_station (i := i) ?_ (fun j hj => by rw [hstation, hother j hj]) (fun j hj l => by simp [hlane, hj])
    ?_ ?_ ?_ ?_ (by simp)
  · refine fits_bare ?_ h0 (by rwa [hstation]) ?_ ?_ ?_ ?_
    · rw [hstation, ← (h.fits i).inFlight]
      by_cases hn : (s.station i).inFlight = 0
      · simp [hgone hn, hn, Station.cleared]
      · simp [hleaving hn]
    · rw [hlists]
      exact ⟨not_mem_erase i h.activeOnce, not_mem_erase i h.promptOnce, not_mem_erase i h.pollOnce⟩
    · rw [allEmpty_iff_lane]
      intro l
      simp [hlane, mem_allLanes]
    · rw [hstation]
      by_cases hn : (s.station i).inFlight = 0
      · simp [hgone hn, Station.cleared]
      · simp [hleaving hn]
    · rw [hstation]
      by_cases hn : (s.station i).inFlight = 0
      · simp [hgone hn, Station.cleared]
      · simpa [hleaving hn] using hn
  · rw [hlists]
    exact nearList_erase h.activeOnce
  · rw [hlists]
    exact nearList_erase h.promptOnce
  · rw [hlists]
    exact nearList_erase h.pollOnce
  · rw [hlists]
    exact fun c hc hm => h.choice c hc (List.mem_of_mem_erase hm)

/-- A station that begins to doze leaves the active and the prompt list (R12). -/
theorem doze (h0 : i ≠ 0) (hi : i < 512) (hd : (s.station i).state ≠ .dozing) :
    (((s.setStationState i .dozing).removeActive i).removePrompt i).Agrees os := by
  have hf := h.fits i
  have hself : (((s.setStationState i .dozing).removeActive i).removePrompt i).station i
      = { s.station i with state := .dozing } := by
    simp [setStationState_station _ _ _ _ hi]
  refine h.of_station (i := i) ?_ (fun j hj => ?_) (by simp) (nearList_erase h.activeOnce) (nearList_erase h.promptOnce)
    (nearList_self h.pollOnce) h.choice (fun _ => rfl)
  · refine fits_dozing ?_ h0 ?_ (not_mem_erase i h.activeOnce) (not_mem_erase i h.promptOnce)
      (fun hm => absurd hm (hf.off_poll hd)) <;> rw [hself]
    exact hf.inFlight
  · simp [setStationState_station _ _ _ _ hi, hj]

/-- A doze that ends: IDLE without frames, and otherwise BACKLOGGED and on the lists (R13). -/
theorem endDoze (h0 : i ≠ 0) (hi : i < 512) (hd : (s.station i).state = .dozing) : (s.endDoze i).Agrees os := by
  have hf := h.fits i
  obtain ⟨hnot, hnotPrompt⟩ := hf.off_active (by simp [hd])
  have hstation : ∀ j, (s.endDoze i).station j = (s.updStation i fun y => { y with
      state := if (s.lanesOf i).allEmpty = true then .idle else .backlogged
      quantum := if s.rck.clocksRunning = true then 0 else y.quantum }).station j := fun j => by
    rw [endDoze_eq]
    rfl
  have hself := hstation i
  rw [updStation_station_self _ _ hi] at hself
  have hactive : (s.endDoze i).sel.active
      = if (s.lanesOf i).allEmpty = true then s.sel.active else joinTail s.sel.active i := by
    by_cases hl : (s.lanesOf i).allEmpty = true <;> simp [endDoze_eq, joinTail, hnot, hl]
  have hprompt : (s.endDoze i).sel.prompt
      = if s.lane i .prompt = [] then s.sel.prompt else joinTail s.sel.prompt i := by
    by_cases hl : s.lane i .prompt = [] <;> simp [endDoze_eq, joinTail, hnotPrompt, hl]
  have hpoll : (s.endDoze i).sel.poll = s.sel.poll.erase i := by rw [endDoze_eq]
  have hout : i ∉ (s.endDoze i).sel.poll := hpoll ▸ not_mem_erase i h.pollOnce
  refine h.of_station (i := i) ?_ (fun j hj => by rw [hstation, updStation_station_of_ne _ _ hj]) (by simp) ?_ ?_
    (hpoll ▸ nearList_erase h.pollOnce) (fun c hc hm => ?_) (by simp)
  · have hn : ((s.endDoze i).station i).inFlight = naming os i := by
      rw [hself]
      exact hf.inFlight
    by_cases hl : (s.lanesOf i).allEmpty = true
    · have hnone : s.lane i .prompt = [] := (allEmpty_iff_lane s i).mp hl .prompt
      rw [if_pos hl] at hself hactive
      rw [if_pos hnone] at hprompt
      exact fits_bare hn h0 (by simp [hself]) ⟨hactive ▸ hnot, hprompt ▸ hnotPrompt, hout⟩ (by simpa using hl)
        (by simp [hself]) (by simp [hself])
    · rw [if_neg hl] at hself hactive
      refine fits_backlogged hn h0 (by simp [hself]) (by simp [hactive, mem_joinTail]) ?_ hout (by simpa using hl)
      rw [hprompt]
      split <;> simp [mem_joinTail, *]
  · rw [hactive]
    split
    · exact nearList_self h.activeOnce
    · exact nearList_joinTail h.activeOnce
  · rw [hprompt]
    split
    · exact nearList_self h.promptOnce
    · exact nearList_joinTail h.promptOnce
  · rw [hpoll] at hm
    exact h.choice c (by simpa using hc) (List.mem_of_mem_erase hm)

/-- A grant: a DOZING station with a filled lane joins the poll list (R14, R100). -/
theorem placePoll (hd : (s.station i).state = .dozing) (hl : (s.lanesOf i).allEmpty = false) (h0 : i ≠ 0)
    (hc : s.sel.choice = none) : (s.placePoll i).Agrees os := by
  have hf := h.fits i
  obtain ⟨hnot, hnotPrompt⟩ := hf.off_active (by simp [hd])
  refine h.of_station (i := i) ?_ (fun _ _ => rfl) (fun _ _ _ => rfl) (nearList_self h.activeOnce)
    (nearList_self h.promptOnce) (nearList_joinTail h.pollOnce) (fun c hs => ?_) (fun _ => rfl)
  · exact fits_dozing hf.inFlight h0 hd hnot hnotPrompt fun _ => hl
  · rw [show (s.placePoll i).sel.choice = s.sel.choice from rfl, hc] at hs
    cases hs

end State.Agrees
end Sys2Proof.Machine
end

section
/-!
StepKeepsTheLists: the modes, the soft reset and the host's commands (R82, R151 to R167, R177).
-/
namespace Sys2Proof.Machine

theorem quietSet_halted (m : Mod) (q : QuietCauses) : (m.quietSet q).mode = .halted ↔ m.mode = .halted := by
  unfold Mod.quietSet
  cases hm : m.mode <;> split <;> simp [hm] <;> split <;> simp

/-- Without a filled lane no list has an entry (R3, R99, R100). -/
theorem State.Agrees.lists_nil {s : State} {os : List Order} (h : s.Agrees os)
    (hl : ∀ i, (s.lanesOf i).allEmpty = true) : s.sel.active = [] ∧ s.sel.prompt = [] ∧ s.sel.poll = [] := by
  have hnone : ∀ i, i ∉ s.sel.active := fun i hm => by
    obtain ⟨h0, hb⟩ := (h.fits i).active.mp hm
    simpa [hl i] using (h.fits i).backlogged h0 hb
  refine ⟨List.eq_nil_iff_forall_not_mem.mpr hnone, List.eq_nil_iff_forall_not_mem.mpr fun i hm => ?_,
    List.eq_nil_iff_forall_not_mem.mpr fun i hm => ?_⟩
  · exact ((h.fits i).prompt.mp hm).2.2 ((allEmpty_iff_lane s i).mp (hl i) .prompt)
  · simpa [hl i] using ((h.fits i).poll hm).2.2

theorem flushAll_allEmpty (s : State) (i : Nat) : (s.flushAll.lanesOf i).allEmpty = true := by
  rw [allEmpty_iff_lane]
  intro l
  by_contra hl
  have hi := lt_of_lane_ne_nil hl
  refine hl ?_
  unfold State.lane
  rw [(flushAll_spec s).1, if_pos hi]
  cases l <;> rfl

@[simp] theorem softResetBlocks_service (s : State) (i : Nat) :
    (s.softResetBlocks.station i).state = (s.station i).state
      ∧ (s.softResetBlocks.station i).inFlight = (s.station i).inFlight := by
  simp [State.softResetBlocks]

namespace State.ListInv
variable {s : State} (h : s.ListInv)
include h

/-! ## Modes -/

theorem setCauses (q : QuietCauses) : (s.setCauses q).ListInv := by
  have hset : ({ s with mod := s.mod.quietSet q } : State).ListInv :=
    h.congr ⟨⟨rfl, rfl, rfl, .inl rfl, fun _ => rfl, fun _ => rfl, fun _ _ => rfl, quietSet_halted s.mod q⟩, rfl⟩
  rw [setCauses_eq]
  split
  · exact hset.selectionRun
  · exact hset

theorem requestLink : s.requestLink.ListInv := by
  unfold State.requestLink State.raiseLink
  split
  · split
    · exact h
    · have hcount : (s.updMgd fun g => { g with linkRaises := satAdd g.linkRaises 1 }).ListInv := h.congr (by simp)
      exact hcount.setCauses _
  · exact h

theorem setMode {m : Mode} (hm : s.mod.mode ≠ .halted) (hn : m ≠ .halted) : (s.setMode m).ListInv :=
  h.congr (by simp [hm, hn])

theorem enterReady (hm : s.mod.mode ≠ .halted) : s.enterReady.ListInv :=
  h.congr (by simp [State.enterReady, hm])

theorem reportEmpty : s.reportEmpty.ListInv := by
  unfold State.reportEmpty
  split
  · rename_i hd
    exact h.enterReady (by simp [hd.1])
  · exact h

/-- The soft reset: no order, no frame, and so no entry on a list (R46, R138, R167). -/
theorem softReset (hm : s.mod.mode ≠ .halted) : s.softReset.ListInv := by
  have hclear : (s.updOrd fun o => { o with quarantine := [] }).ListInv := h.congr (by simp)
  have horders : s.softResetOrders.ListInv :=
    (hclear.cancelOrders (Nat.zero_le 8)).congr (by simp [State.softResetOrders])
  have hflush := horders.agrees.flushAll
  have hnil := hflush.lists_nil (flushAll_allEmpty _)
  unfold State.softReset
  refine (hflush.congr ?_).listInv (by simp)
  obtain ⟨hmode, -, -, hsel, -⟩ := softResetBlocks_spec s.softResetOrders.flushAll
  simp [hmode, hsel, hnil, hm]

/-! ## The commands of MOD -/

theorem decideConfigure (b : List Byte) : (decideConfigure s b).1.ListInv := by
  have hwritten : (s.writeConfiguration (parseConfigure b).toConfiguration).ListInv := h.congr (by simp)
  unfold Machine.decideConfigure
  dsimp only
  split
  iterate 3 exact h
  · rename_i hm
    split
    · exact h
    · split
      · exact h
      · simpa only [accept, if_pos hm] using hwritten.agrees.leaveHalted.listInv (by simp)
  · rename_i hm
    have hclamped := hwritten.congr (t := (s.writeConfiguration (parseConfigure b).toConfiguration).reclampStations)
      (by simp)
    split
    · exact h
    · split
      · exact h
      · simpa only [accept, hm, reduceCtorEq, if_false] using hclamped

theorem decideStart (b : List Byte) : (decideStart s b).1.ListInv := by
  unfold Machine.decideStart
  split
  · rename_i hm
    have hzero : ((s.updMgd fun g => { g with freeNow := s.mod.config.freeInitialPm }).boundaryZero).ListInv :=
      h.congr (by simp)
    refine State.ListInv.selectionRun (hzero.setMode (by simp [hm]) ?_)
    split <;> simp
  all_goals exact h

theorem decideStop (b : List Byte) : (decideStop s b).1.ListInv := by
  have hstop : s.mod.mode ≠ .halted →
      (if s.ord.outstanding.isEmpty = true then s.enterReady else s.setMode .draining).ListInv := by
    intro hm
    split
    · exact h.enterReady hm
    · exact h.setMode hm (by simp)
  unfold Machine.decideStop
  split
  iterate 2
    dsimp only [accept]
    exact hstop (by simp [*])
  all_goals exact h

theorem decideAbort (hq : s.ord.quarantine.length ≤ 8) (b : List Byte) : (decideAbort s b).1.ListInv := by
  unfold Machine.decideAbort
  split
  iterate 3
    dsimp only [accept]
    exact (h.cancelOrders hq).enterReady (by simp [*])
  all_goals exact h

theorem decideReset (b : List Byte) : (decideReset s b).1.ListInv := by
  unfold Machine.decideReset
  split
  · exact h
  all_goals
    rename_i hm
    dsimp only [accept]
    exact h.softReset (by simp [hm])

theorem decideQuiet (b : List Byte) : (decideQuiet s b).1.ListInv := by
  unfold Machine.decideQuiet
  split
  · exact h
  all_goals
    dsimp only [accept]
    exact h.setCauses _

theorem decideResume (b : List Byte) : (decideResume s b).1.ListInv := by
  unfold Machine.decideResume
  split
  · exact h
  all_goals
    dsimp only [accept]
    exact h.setCauses _

theorem decideQuery (b : List Byte) : (decideQuery s b).1.ListInv := by
  unfold Machine.decideQuery
  dsimp only
  split
  · exact h
  split
  · exact h
  split <;> exact h

/-! ## The commands of STT, FPL and COH -/

theorem decideAdmit (b : List Byte) : (decideAdmit s b).1.ListInv := by
  unfold Machine.decideAdmit
  dsimp only
  split
  · exact h
  split
  · exact h
  split
  · exact h
  split
  · exact h
  split
  · exact h
  dsimp only [accept]
  rename_i hrange h0 hv _
  have hi : (parseAdmit b).index < 512 := by simp_all [stationIndex, Config.stationCount]
  exact (h.agrees.admitted _ h0 (not_not.mp hv) hi).carry (by simp)

theorem decideRelease (b : List Byte) : (decideRelease s b).1.ListInv := by
  unfold Machine.decideRelease
  dsimp only
  split
  · exact h
  split
  · exact h
  split
  · exact h
  dsimp only [accept]
  rename_i hrange hclient
  have hi : field b 0 2 < 512 := by simpa [stationIndex, Config.stationCount] using hrange
  have h0 : field b 0 2 ≠ 0 := fun e => hclient (by simp [State.admittedClient, e])
  exact (h.agrees.release h0 hi).carry (by simp)

/-- A command that writes a station's weight or its hold (R9, R10). -/
theorem updStation (i : Nat) {f : Station → Station}
    (hf : ∀ x, (f x).state = x.state ∧ (f x).inFlight = x.inFlight) : (s.updStation i f).ListInv := by
  have hservice := fun j => updStation_service s j i hf
  exact h.congr (by simp [fun j => (hservice j).1, fun j => (hservice j).2])

theorem decideSetWeight (b : List Byte) : (decideSetWeight s b).1.ListInv := by
  unfold Machine.decideSetWeight
  dsimp only
  split
  · exact h
  split
  · exact h
  split
  · exact h
  dsimp only [accept]
  refine h.updStation _ fun x => ?_
  split <;> exact ⟨rfl, rfl⟩

theorem decideHold (b : List Byte) : (decideHold s b).1.ListInv := by
  unfold Machine.decideHold
  dsimp only
  split
  · exact h
  split
  · exact h
  split
  · exact h
  dsimp only [accept]
  split
  · have hheld : ∀ i v, (s.updStation i fun x => { x with held := v, stagedHold := none }).ListInv := fun i v =>
      h.updStation i fun _ => ⟨rfl, rfl⟩
    unfold State.applyHold
    dsimp only
    split
    · exact (hheld _ _).selectionRun
    · exact hheld _ _
  · exact h.updStation _ fun _ => ⟨rfl, rfl⟩

theorem decideEnqueue (b : List Byte) : (decideEnqueue s b).1.ListInv := by
  have hoffer : (s.offerFrames (parseEnqueue b)).1.ListInv := (h.agrees.offerFrames _).carry (by simp)
  unfold Machine.decideEnqueue
  split
  · exact h
  split
  · exact h
  dsimp only
  split
  · exact hoffer.selectionRun
  · exact hoffer

theorem decideFlush (b : List Byte) : (decideFlush s b).1.ListInv := by
  unfold Machine.decideFlush
  dsimp only
  split
  · exact h
  split
  · exact h
  split
  · exact h
  split
  · exact h
  · exact (h.agrees.returnLanes _ _ _).carry (by simp)

theorem decideSetCohort (b : List Byte) : (decideSetCohort s b).1.ListInv := by
  unfold Machine.decideSetCohort
  dsimp only
  repeat' split
  all_goals exact h.congr (by simp [accept, refuse])

/-- Every owner's decision. -/
theorem decision (hq : s.ord.quarantine.length ≤ 8) (c : Command) (b : List Byte) : (c.decision s b).1.ListInv := by
  cases c with
  | configure => exact h.decideConfigure b
  | start => exact h.decideStart b
  | stop => exact h.decideStop b
  | abort => exact h.decideAbort hq b
  | reset => exact h.decideReset b
  | quiet => exact h.decideQuiet b
  | resume => exact h.decideResume b
  | status => exact h
  | admitStation => exact h.decideAdmit b
  | release => exact h.decideRelease b
  | setWeight => exact h.decideSetWeight b
  | hold => exact h.decideHold b
  | enqueue => exact h.decideEnqueue b
  | flush => exact h.decideFlush b
  | setCohort => exact h.decideSetCohort b
  | query => exact h.decideQuery b

end State.ListInv
end Sys2Proof.Machine
end

section
/-!
StepKeepsTheLists: the records from the MAC, the deadlines and the links' own rows, and with them every step.
-/
namespace Sys2Proof.Machine

namespace State.ListInv
variable {s t : State} (h : s.ListInv)
include h

/-- The stations, the lanes, the selector, the mode and the orders are the same in `t` as in `s`. -/
theorem of_tables (hstations : t.stt.stations = s.stt.stations) (hlanes : t.fpl.lanes = s.fpl.lanes)
    (hsel : t.sel = s.sel) (hmode : t.mod.mode = s.mod.mode) (hos : t.ord.outstanding = s.ord.outstanding) :
    t.ListInv :=
  h.congr (by simp [State.station, hstations, lane_congr hlanes, hsel, hmode, hos])

/-! ## The records that the RLI delivers, and the deadlines -/

theorem takeOutcome (hr : s.Regular) (x : Outcome) : (s.takeOutcome x).ListInv := by
  unfold State.takeOutcome
  split
  · rename_i o hf
    exact (h.acceptOutcome hr.lists.ids (List.mem_of_find?_eq_some hf) x).reportEmpty.selectionRun
  · split <;> exact h.congr (by simp)

theorem takeReport (pm : Nat) : (s.takeReport pm).ListInv := by
  unfold State.takeReport
  split <;> exact h.congr (by simp)

theorem takeAlert (c : AlertCause) : (s.takeAlert c).ListInv := by
  have hfill : (s.fillCapture c).ListInv := h.congr (by simp)
  exact (hfill.setCauses { (s.fillCapture c).mod.causes with medium := true }).congr (by simp [State.takeAlert])

theorem takeClear : s.takeClear.ListInv :=
  (h.setCauses { s.mod.causes with medium := false }).congr (by simp [State.takeClear])

theorem takeMedium {f : State → State} (hf : (f s).ListInv) : (State.takeMedium f s).ListInv := by
  unfold State.takeMedium
  split
  · exact h.congr (by simp)
  · exact hf

theorem takeDoze (i : Nat) : (s.takeDoze i).ListInv := by
  unfold State.takeDoze
  split
  · exact h.congr (by simp)
  · exact h
  · rename_i x hnot hx
    obtain ⟨h0, hi, hs⟩ := awakeOrDozing_some hx
    exact (h.agrees.doze h0 hi fun hd => hnot (hs ▸ hd)).carry (by simp)

theorem takeWake (i : Nat) : (s.takeWake i).ListInv := by
  unfold State.takeWake
  split
  · exact h.congr (by simp)
  · rename_i hx
    obtain ⟨h0, hi, hd⟩ := awakeOrDozing_some hx
    have hwoken : (s.endDoze i).ListInv := (h.agrees.endDoze h0 hi hd).carry (by simp)
    exact hwoken.selectionRun
  · exact h

theorem takePoll (hc : s.sel.choice = none) (i : Nat) : (s.takePoll i).ListInv := by
  unfold State.takePoll State.grantPoll
  split
  · exact h.congr (by simp)
  · rename_i hx
    obtain ⟨h0, hi, hd⟩ := awakeOrDozing_some hx
    split
    · exact h.congr (by simp)
    · rename_i hl
      have hplaced : (s.placePoll i).ListInv := (h.agrees.placePoll hd (by simpa using hl) h0 hc).carry rfl
      exact hplaced.selectionRun
  · exact h

theorem expireFrame (r : ExpiryRef) : (s.expireFrame r).ListInv :=
  (h.agrees.expireFrame r).carry (by simp)

theorem expireDue : s.expireDue.ListInv := by
  unfold State.expireDue
  split
  · exact h
  · exact h.expireFrame _

theorem takeExpiry : s.takeExpiry.ListInv := by
  unfold State.takeExpiry
  split
  · exact h
  · split
    · exact h.expireFrame _
    · exact h.settle.expireDue

theorem timeOutOrder (hr : s.Regular) {o : Order} (ho : o ∈ s.ord.outstanding) : (s.timeOutOrder o).ListInv :=
  (h.loseOrder hr.quarantine_le hr.lists.ids ho).requestLink.reportEmpty.selectionRun

theorem takeTimeout (hr : s.Regular) : s.takeTimeout.ListInv := by
  by_cases hd : s.timeoutDue = none
  · unfold State.takeTimeout
    rw [hd]
    exact h
  · rw [takeTimeout_settle hd]
    unfold State.takeTimeout
    split
    · exact h.settle
    · rename_i o ho
      rw [settle_settle]
      exact h.settle.timeOutOrder hr.settle (List.mem_of_find?_eq_some ho)

theorem takeRoundBoundary : s.takeRoundBoundary.ListInv := by
  unfold State.takeRoundBoundary
  split
  · have hbegun : s.settle.closeRound.advanceRound.beginRound.ListInv := h.settle.congr (by simp)
    unfold State.makeRoundBoundary
    dsimp only
    refine State.ListInv.selectionRun ?_
    split
    · exact hbegun.congr (by simp)
    · exact hbegun
  · exact h

theorem takePromptBoundary : s.takePromptBoundary.ListInv := by
  unfold State.takePromptBoundary
  split
  · have hbegun : (s.settle.advancePrompt s.settle.rck.nextPromptAt).beginPromptPeriod.ListInv :=
      h.settle.congr (by simp)
    exact hbegun.selectionRun
  · exact h

/-! ## Dispatch and delivery -/

theorem popInbound : s.popInbound.ListInv :=
  h.congr (by simp [State.popInbound])

theorem dispatch (hr : s.Regular) (c : Command) : (s.dispatch c c.decision).ListInv := by
  have hpop := h.settle.popInbound
  unfold State.dispatch
  split
  · exact h
  · rename_i r _
    dsimp only
    split
    · exact (hpop.decision hr.settle.quarantine_le c r.body).congr (by simp)
    · exact hpop.congr (by simp)

theorem rejectUnknown : s.rejectUnknown.ListInv := by
  unfold State.rejectUnknown
  split
  · exact h
  · exact h.settle.popInbound.congr (by simp)

/-- A delivery: its owner takes the record from a part whose choice has been followed through (R106, R186). -/
theorem deliver (hr : s.Regular) {take : MacRecord → Option (State → State)}
    (ht : ∀ (r : MacRecord) (f : State → State) (u : State), take r = some f → u.ListInv → u.Regular →
      u.sel.choice = none → (f u).ListInv) : (s.deliver take).ListInv := by
  unfold State.deliver
  split
  · exact h
  · split
    · exact h
    · exact ht _ _ _ ‹_› (h.settle.congr (by simp)) (hr.settle.congr (by simp)) rfl

/-! ## The links' own operations -/

theorem returnFiller (n : Nat) : (s.returnFiller n).ListInv :=
  h.congr (by simp [State.returnFiller])

theorem takeDirection (b : Byte) : (s.takeDirection b).ListInv := by
  unfold State.takeDirection
  split
  · exact h
  · exact h.congr (by simp)

theorem endWrite (b : List Byte) : (s.endWrite b).ListInv := by
  unfold State.endWrite
  split
  · exact h.congr (by simp)
  · exact h.returnFiller _
  · exact h

theorem endRead (n : Nat) : (s.endRead n).ListInv := by
  unfold State.endRead
  split
  · exact h.congr (by simp)
  · exact h.returnFiller _
  · exact h

theorem endIdle (n : Nat) : (s.endIdle n).ListInv := by
  unfold State.endIdle
  split
  · exact h.congr (by simp)
  · exact h.returnFiller _
  · exact h

theorem formTokenReturn : s.formTokenReturn.ListInv := by
  unfold State.formTokenReturn
  split
  · exact h.congr (by simp [State.lane, State.lanesOf])
  · exact h

theorem formAlert : s.formAlert.ListInv := by
  unfold State.formAlert
  split
  · exact h.congr (by simp)
  · exact h

theorem endPulse : s.endPulse.ListInv := by
  unfold State.endPulse
  split
  · exact h.congr (by simp)
  · exact h

theorem endRecord (b : List Byte) (c : Bool) : (s.endRecord b c).ListInv := by
  unfold State.endRecord
  split
  · exact h
  · exact h.congr (by simp)
  · exact h.congr (by simp)

theorem startRecord (b : List Byte) : (s.startRecord b).ListInv := by
  unfold State.startRecord
  dsimp only
  split <;> exact (h.endRecord b false).congr (by simp)

theorem beginSending (b : Bool) : (s.beginSending b).ListInv := by
  unfold State.beginSending
  split <;> exact h.congr (by simp)

theorem finishSending : s.finishSending.ListInv := by
  unfold State.finishSending
  split
  · exact h
  · split <;> exact h.congr (by simp)

theorem giveOrders (n : Nat) : (s.giveOrders n).ListInv :=
  h.congr (by simp [giveOrders_unsent])

theorem expireBlanking : s.expireBlanking.ListInv := by
  unfold State.expireBlanking
  split
  · exact h.congr (by simp)
  · exact h

/-! ## Every row of the table -/

theorem whenReleased {f : State → State} (ht : s.whenReleased f = .next t) (hf : (f s).ListInv) : t.ListInv := by
  obtain rfl | rfl := whenReleased_next ht
  · exact h
  · exact hf

theorem whenSelected {n : Nat} {f : State → State} (ht : s.whenSelected n f = .next t) (hf : (f s).ListInv) :
    t.ListInv := by
  obtain rfl | rfl := whenSelected_next ht
  · exact h.returnFiller n
  · exact hf

theorem command (hr : s.Regular) (c : Command) (ht : Machine.exec c.event s = .next t) : t.ListInv := by
  rw [exec_event] at ht
  refine h.whenReleased ht ?_
  split
  · exact (h.dispatch hr c).congr (by simp)
  · exact h.dispatch hr c

theorem exec (hr : s.Regular) {i : Instr} (ht : exec i s = .next t) : t.ListInv := by
  cases i with
  | writeTransaction b => exact h.whenSelected (f := fun s => s.endWrite b) ht (h.endWrite b)
  | readTransaction n => exact h.whenSelected (f := fun s => s.endRead n) ht (h.endRead n)
  | idleTransaction n => exact h.whenSelected (f := fun s => s.endIdle n) ht (h.endIdle n)
  | directionByte b => exact h.whenSelected (f := fun s => s.takeDirection b) ht (h.takeDirection b)
  | unknownType => exact h.whenReleased ht h.rejectUnknown
  | configure => exact h.command hr .configure ht
  | start => exact h.command hr .start ht
  | stop => exact h.command hr .stop ht
  | abort => exact h.command hr .abort ht
  | reset => exact h.command hr .reset ht
  | quiet => exact h.command hr .quiet ht
  | resume => exact h.command hr .resume ht
  | status => exact h.command hr .status ht
  | admitStation => exact h.command hr .admitStation ht
  | release => exact h.command hr .release ht
  | setWeight => exact h.command hr .setWeight ht
  | hold => exact h.command hr .hold ht
  | enqueue => exact h.command hr .enqueue ht
  | flush => exact h.command hr .flush ht
  | setCohort => exact h.command hr .setCohort ht
  | query => exact h.command hr .query ht
  | txOutcome =>
    unfold Machine.exec execTxOutcome at ht
    refine h.whenReleased ht (h.deliver hr fun r f u hf hu hur _ => ?_)
    cases r <;> cases hf
    exact hu.takeOutcome hur _
  | mediumReport =>
    unfold Machine.exec execMediumReport at ht
    refine h.whenReleased ht (h.deliver hr fun r f u hf hu _ _ => ?_)
    cases r <;> cases hf
    exact hu.takeMedium (hu.takeReport _)
  | mediumAlert =>
    unfold Machine.exec execMediumAlert at ht
    refine h.whenReleased ht (h.deliver hr fun r f u hf hu _ _ => ?_)
    cases r <;> cases hf
    exact hu.takeMedium (hu.takeAlert _)
  | mediumClear =>
    unfold Machine.exec execMediumClear at ht
    refine h.whenReleased ht (h.deliver hr fun r f u hf hu _ _ => ?_)
    cases r <;> cases hf
    exact hu.takeMedium hu.takeClear
  | doze =>
    unfold Machine.exec execDoze at ht
    refine h.whenReleased ht (h.deliver hr fun r f u hf hu _ _ => ?_)
    cases r <;> cases hf
    exact hu.takeDoze _
  | wake =>
    unfold Machine.exec execWake at ht
    refine h.whenReleased ht (h.deliver hr fun r f u hf hu _ _ => ?_)
    cases r <;> cases hf
    exact hu.takeWake _
  | poll =>
    unfold Machine.exec execPoll at ht
    refine h.whenReleased ht (h.deliver hr fun r f u hf hu _ hc => ?_)
    cases r <;> cases hf
    exact hu.takePoll hc _
  | frameExpiry => exact h.whenReleased ht h.takeExpiry
  | orderTimeout => exact h.whenReleased ht (h.takeTimeout hr)
  | roundBoundary => exact h.whenReleased ht h.takeRoundBoundary
  | promptBoundary => exact h.whenReleased ht h.takePromptBoundary
  | orderBuild => exact h.whenReleased ht h.buildOrder
  | pinReset =>
    cases ht
    exact (pinResetValues_listInv true).of_tables rfl rfl rfl rfl rfl
  | resetNRelease =>
    cases ht
    exact h.of_tables rfl rfl rfl rfl rfl
  | tokenReturn => exact h.whenReleased ht h.formTokenReturn
  | alert => exact h.whenReleased ht h.formAlert
  | attnPulse => exact h.whenReleased ht h.endPulse
  | recordStart cut => exact h.whenReleased (f := fun s => s.startRecord cut) ht (h.startRecord cut)
  | recordEnd framed => exact h.whenReleased (f := fun s => s.endRecord framed true) ht (h.endRecord framed true)
  | radioRecordSent => exact h.whenReleased ht h.finishSending
  | radioRecordBegin r => exact h.whenReleased (f := fun s => s.beginSending r) ht (h.beginSending r)
  | cancelAll => exact h.whenReleased ht (h.congr (by simp))
  | linkNoteHanded => exact h.whenReleased (f := fun s => s.giveNotes 1) ht (h.congr (by simp))
  | txOrderPlaced => exact h.whenReleased (f := fun s => s.giveOrders 1) ht (h.giveOrders 1)
  | blankingExpiry => exact h.whenReleased ht h.expireBlanking

end State.ListInv

/-- Settles O57: ListInv as the agreement of each station with the lists and the orders, which every row of the table
and the passing of time keep. -/
theorem stepKeepsTheLists : Obligations.StepKeepsTheLists := by
  unfold Obligations.StepKeepsTheLists
  intro s t hm ho h hs
  have hr : s.Regular := (regular_iff s).mpr ⟨hm, ho⟩
  unfold step at hs
  split at hs
  · rename_i rest _
    have hnext : { s with pending := rest }.ListInv := h.of_tables rfl rfl rfl rfl rfl
    exact hnext.exec (hr.congr (by simp)) hs
  · split at hs
    · exact h.exec hr hs
    · injection hs with hs
      subst hs
      exact h.of_tables rfl rfl rfl rfl rfl

end Sys2Proof.Machine
end

section
/-!
TX_OUTCOME for an id that is not outstanding (R124, R135, R136): the order is looked for by its id, and where none bears
it only the quarantine list and ORD's counters can change.
-/
namespace Sys2Proof.Machine

/-- The row at the head of the radio inbound queue: the outcome is taken behind its delivery. -/
theorem exec_txOutcome {s : State} {rest : List MacRecord} {x : Outcome} (h : s.Delivers (.txOutcome x) rest) :
    exec .txOutcome s = .next (State.takeOutcome x { s with rli := s.delivered rest }) := by
  show execTxOutcome s = _
  unfold execTxOutcome
  rw [whenReleased_of_released _ h.1, deliver_of_delivers _ h rfl]

/-- An outcome whose id no outstanding order bears is late or unmatched (R124). -/
theorem takeOutcome_of_not_outstanding {s : State} {x : Outcome} (h : ∀ o ∈ s.ord.outstanding, o.id ≠ x.id) :
    s.takeOutcome x = if x.id ∈ s.ord.quarantine then s.lateOutcome x.id else s.unmatchedOutcome := by
  have hfind : s.ord.outstanding.find? (fun o => o.id == x.id) = none :=
    List.find?_eq_none.mpr fun o ho => by simpa using h o ho
  unfold State.takeOutcome
  rw [hfind]

theorem lateOutcome_eq (s : State) (id : OrderId) :
    s.lateOutcome id = { s with ord := { s.ord with
      quarantine := s.ord.quarantine.erase id
      counters := { s.ord.counters with
        lateOutcomes := min (s.ord.counters.lateOutcomes + 1) Config.counterMax } } } := rfl

theorem unmatchedOutcome_eq (s : State) :
    s.unmatchedOutcome = { s with ord := { s.ord with counters := { s.ord.counters with
      unmatchedOutcomes := min (s.ord.counters.unmatchedOutcomes + 1) Config.counterMax } } } := rfl

/-- Settles O37, by whether the id is quarantined: the record is delivered, and the outcome is discarded behind it. -/
theorem lateAndUnmatchedOutcomesAreDiscarded : Obligations.LateAndUnmatchedOutcomesAreDiscarded := by
  unfold Obligations.LateAndUnmatchedOutcomesAreDiscarded
  intro s rest x h hout
  have htake := takeOutcome_of_not_outstanding (s := { s with rli := s.delivered rest }) hout
  rw [exec_txOutcome h, htake]
  constructor
  · intro hlate
    rw [if_pos hlate, lateOutcome_eq]
  · intro hunmatched
    rw [if_neg hunmatched, unmatchedOutcome_eq]

end Sys2Proof.Machine
end

section
/-!
The frames of an order (R50, R120): the first entry of the lane, and as many behind it as join under the three tests.
-/
namespace Sys2Proof.Machine

/-- Settles O50: the first entry meets the tests as it stands alone, and the candidates behind it join one by one until
the lane ends or one of them fails a test. -/
theorem aggregateIsTheLongestAdmittedHead : Obligations.AggregateIsTheLongestAdmittedHead := by
  unfold Obligations.AggregateIsTheLongestAdmittedHead
  intro cfg rate limit lane hlane
  obtain ⟨f, rest, rfl⟩ := List.exists_cons_of_ne_nil hlane
  obtain ⟨k, htaken, hk, hadmitted, hlongest⟩ := extendOrder_spec cfg rate limit [f] rest (by simp) (by simp)
  have hhead (m : Nat) : [f] ++ rest.take m = (f :: rest).take (m + 1) := rfl
  have hlength : [f].length + k = k + 1 := Nat.add_comm 1 k
  rw [hhead, hlength] at hadmitted
  rw [hhead, hlength] at hlongest
  refine ⟨k + 1, htaken, Nat.le_add_left 1 k, Nat.succ_le_succ hk, hadmitted, ?_⟩
  exact hlongest.imp_left (congrArg (· + 1))

end Sys2Proof.Machine
end

section
/-!
QUIET and RESUME (R151, R154, R169), MEDIUM_REPORT (R144), MEDIUM_CLEAR (R149), and the end of blanking (R145).
-/
namespace Sys2Proof.Machine

/-! ## QUIET and RESUME -/

/-- A change of the quiet-cause set leaves the ATTN operation (R179). -/
theorem quietSet_attnOperation (m : Mod) (q : QuietCauses) : (m.quietSet q).attnOperation = m.attnOperation := by
  simp [Mod.attnOperation]

/-- Outside HALTED QUIET is accepted (R158), and HOST holds the part off RUNNING (R154). -/
theorem decideQuiet_of_not_halted {s : State} (hm : s.mod.mode ≠ .halted) (b : List Byte) :
    decideQuiet s b = accept { s with mod := s.mod.quietSet { s.mod.causes with host := true } } := by
  have hq : ({ s.mod.causes with host := true } : QuietCauses) ≠ .empty := by simp [QuietCauses.empty]
  unfold decideQuiet
  rw [setCauses_of_nonempty hq]
  split
  · exact absurd ‹_› hm
  all_goals rfl

/-- Outside HALTED RESUME is accepted (R158). -/
theorem decideResume_of_not_halted {s : State} (hm : s.mod.mode ≠ .halted) (b : List Byte) :
    decideResume s b = accept (s.setCauses { s.mod.causes with host := false, link := false }) := by
  unfold decideResume
  split
  · exact absurd ‹_› hm
  all_goals rfl

/-- Settles O18: QUIET leaves no run to follow, and the reply to RESUME goes in line ahead of the run. -/
theorem quietAndResumeChangeTheCauses : Obligations.QuietAndResumeChangeTheCauses := by
  unfold Obligations.QuietAndResumeChangeTheCauses
  intro s r rest hm
  refine ⟨fun h => ?_, fun m h hmod => ?_⟩
  · have hd := decideQuiet_of_not_halted (s := s.taken rest) hm r.body
    exact exec_answered h (by simp) hd rfl rfl (quietSet_attnOperation _ _)
  · have hd := decideResume_of_not_halted (s := s.taken rest) hm r.body
    have hx := exec_answered h (by simp) hd (by simp) (by simp) (by simp [Mod.attnOperation])
    have hset := setCauses_eq (s.taken rest) { s.mod.causes with host := false, link := false }
    simp only [taken_keeps, ← hmod] at hx hset
    rw [hset] at hx
    refine hx.trans (congrArg Host.Outcome.next ?_)
    split
    · exact (selectionRun_cli _ _).symm
    · rfl

/-! ## MEDIUM_REPORT -/

theorem exec_mediumReport {s : State} {rest : List MacRecord} {pm : Nat} (h : s.Delivers (.mediumReport pm) rest) :
    exec .mediumReport s = .next (State.takeMedium (State.takeReport pm) { s with rli := s.delivered rest }) := by
  show execMediumReport s = _
  unfold execMediumReport
  rw [whenReleased_of_released _ h.1, deliver_of_delivers _ h rfl]

/-- While blanking is STOPPED free_now takes the value clamped to 1000 (R144). -/
theorem takeReport_of_stopped {s : State} (h : s.mgd.blanking = none) (pm : Nat) : s.takeReport pm = { s with
    mgd := { s.mgd with
      freeNow := min pm 1000, mediumReports := min (s.mgd.mediumReports + 1) 4294967295 } } := by
  unfold State.takeReport
  rw [h]
  rfl

/-- While blanking is RUNNING the report is counted and discarded (R144). -/
theorem takeReport_of_running {s : State} (h : s.mgd.blanking ≠ none) (pm : Nat) : s.takeReport pm = { s with
    mgd := { s.mgd with reportsBlanked := min (s.mgd.reportsBlanked + 1) 4294967295 } } := by
  obtain ⟨d, hd⟩ := Option.ne_none_iff_exists'.mp h
  unfold State.takeReport
  rw [hd]
  rfl

/-- Settles O38: the report discarded in HALTED, taken, and blanked. -/
theorem mediumReportSetsFreeNow : Obligations.MediumReportSetsFreeNow := by
  unfold Obligations.MediumReportSetsFreeNow
  intro s rest pm h
  rw [exec_mediumReport h]
  refine ⟨fun hm => ?_, fun hm hstopped => ?_, fun hm hrunning => ?_⟩
  · rw [takeMedium_of_halted (s := { s with rli := s.delivered rest }) hm]
  · rw [takeMedium_of_not_halted (s := { s with rli := s.delivered rest }) hm,
      takeReport_of_stopped (s := { s with rli := s.delivered rest }) hstopped]
  · rw [takeMedium_of_not_halted (s := { s with rli := s.delivered rest }) hm,
      takeReport_of_running (s := { s with rli := s.delivered rest }) hrunning]

/-! ## MEDIUM_CLEAR -/

theorem exec_mediumClear {s : State} {rest : List MacRecord} (h : s.Delivers .mediumClear rest) :
    exec .mediumClear s = .next (State.takeMedium State.takeClear { s with rli := s.delivered rest }) := by
  show execMediumClear s = _
  unfold execMediumClear
  rw [whenReleased_of_released _ h.1, deliver_of_delivers _ h rfl]

/-- A clear outside HALTED (R149): a run reads nothing of blanking, so it may as well come last. -/
theorem takeClear_eq (s : State) : s.takeClear =
    if s.mod.mode = .quiet ∧ (s.mod.quietSet { s.mod.causes with medium := false }).mode = .running
    then ({ s with mod := s.mod.quietSet { s.mod.causes with medium := false } } : State).restartBlanking.selectionRun
    else ({ s with mod := s.mod.quietSet { s.mod.causes with medium := false } } : State).restartBlanking := by
  unfold State.takeClear
  rw [setCauses_eq, apply_ite State.restartBlanking, selectionRun_restartBlanking]

/-- Blanking reads nothing of MOD but the configuration, which a change of the causes leaves (R145). -/
theorem quietSet_restartBlanking (s : State) (q : QuietCauses) :
    ({ s with mod := s.mod.quietSet q } : State).restartBlanking = { s with
      mod := s.mod.quietSet q
      mgd := { s.mgd with
        blanking := if s.mod.config.blankMs = 0 then none
          else some (deadlineAfter s.rck.deviceTime (s.mod.config.blankMs * 1000)) } } := by
  simp [State.restartBlanking, State.updMgd]

/-- Settles O40: the clear discarded in HALTED, and the clear taken. -/
theorem mediumClearEndsTheEpisode : Obligations.MediumClearEndsTheEpisode := by
  unfold Obligations.MediumClearEndsTheEpisode
  intro s rest m t h hmod ht
  rw [exec_mediumClear h]
  refine ⟨fun hm => ?_, fun hm => ?_⟩
  · rw [takeMedium_of_halted (s := { s with rli := s.delivered rest }) hm]
  · have hcleared := quietSet_restartBlanking { s with rli := s.delivered rest } { s.mod.causes with medium := false }
    rw [takeMedium_of_not_halted (s := { s with rli := s.delivered rest }) hm, takeClear_eq, hcleared, ht, hmod]
    rfl

/-! ## BLANKING_EXPIRY -/

theorem exec_blankingExpiry {s : State} (h : s.resetN = false) :
    exec .blankingExpiry s = .next s.expireBlanking := by
  show execBlankingExpiry s = _
  unfold execBlankingExpiry
  rw [whenReleased_of_released _ h]

/-- Blanking is due at its deadline, and never while it is STOPPED (R145). -/
theorem blankingDue_iff (s : State) :
    s.blankingDue = true ↔ ∃ d, s.mgd.blanking = some d ∧ passed s.rck.deviceTime d = true := by
  unfold State.blankingDue
  cases s.mgd.blanking with
  | none => simp [deadlinePassed]
  | some d => simp [deadlinePassed]

theorem expireBlanking_of_due {s : State} (h : s.blankingDue = true) :
    s.expireBlanking = { s with mgd := { s.mgd with blanking := none } } :=
  if_pos h

theorem expireBlanking_of_not_due {s : State} (h : ¬ s.blankingDue = true) : s.expireBlanking = s :=
  if_neg h

theorem passed_iff (now d : Time) : passed now d = true ↔ 0 ≤ (now - d).toInt :=
  decide_eq_true_iff

/-- Settles O46: the deadline that has passed, the one that has not or is absent, and the comparison of R69. -/
theorem blankingEndsAtItsDeadline : Obligations.BlankingEndsAtItsDeadline := by
  unfold Obligations.BlankingEndsAtItsDeadline
  intro s h
  rw [exec_blankingExpiry h]
  refine ⟨fun d hd hpassed => ?_, fun hearly => ?_, fun d => passed_iff _ d⟩
  · rw [expireBlanking_of_due ((blankingDue_iff s).mpr ⟨d, hd, hpassed⟩)]
  · have hnot : ¬ s.blankingDue = true := fun hdue => by
      obtain ⟨d, hd, hpassed⟩ := (blankingDue_iff s).mp hdue
      exact absurd ((hearly d hd).symm.trans hpassed) Bool.false_ne_true
    rw [expireBlanking_of_not_due hnot]

end Sys2Proof.Machine
end

section
/-!
The table of modes that refuse a command (R158), and the refusals of CONFIGURE with the ranges of its fields (R159,
R160).
-/
namespace Sys2Proof.Machine

/-! ## The table of R158 -/

/-- The row of a command that its owner refuses: the reply stands in line, and CONFIGURE starts no ATTN operation. -/
theorem exec_refused {s : State} {c : Command} {r : HostRecord} {rest : List HostRecord} {k : ReplyCode}
    (h : s.Heads c r rest) (hd : c.decision (s.taken rest) r.body = refuse (s.taken rest) k) :
    exec c.event s = .next { s with cli := s.answered r rest (.code k) } := by
  by_cases hc : c = .configure
  · subst hc
    have hx := exec_configure_of_decision h hd
    rw [pushOut_answered (s := s) (rest := rest) rfl rfl rfl] at hx
    exact hx.trans (congrArg Host.Outcome.next (reformAttn_same { s with cli := s.answered r rest (.code k) }))
  · exact exec_unchanged h hc hd

/-- In HALTED every command is refused but CONFIGURE and STATUS. -/
theorem decision_of_halted {s : State} {c : Command} (hc : c ≠ .configure) (hs : c ≠ .status)
    (hm : s.mod.mode = .halted) (b : List Byte) : c.decision s b = refuse s .badState := by
  cases c with
  | configure => exact absurd rfl hc
  | status => exact absurd rfl hs
  | start => simp [Command.decision, decideStart, hm]
  | stop => simp [Command.decision, decideStop, hm]
  | abort => simp [Command.decision, decideAbort, hm]
  | reset => simp [Command.decision, decideReset, hm]
  | quiet => simp [Command.decision, decideQuiet, hm]
  | resume => simp [Command.decision, decideResume, hm]
  | _ => exact if_pos hm

/-- Outside HALTED the mode refuses CONFIGURE, START, STOP and ABORT alone, each in modes of its own. -/
theorem modeRefuses_of_not_halted {c : Command} {m : Mode} (hm : m ≠ .halted) (h : modeRefuses c m = true) :
    (c = .configure ∧ m ≠ .ready) ∨ (c = .start ∧ m ≠ .ready) ∨ (c = .stop ∧ m ≠ .running ∧ m ≠ .quiet)
      ∨ (c = .abort ∧ m = .ready) := by
  cases c with
  | configure => exact .inl ⟨rfl, by rintro rfl; cases h⟩
  | start => exact .inr (.inl ⟨rfl, by rintro rfl; cases h⟩)
  | stop => exact .inr (.inr (.inl ⟨rfl, (by rintro rfl; cases h), by rintro rfl; cases h⟩))
  | abort =>
    refine .inr (.inr (.inr ⟨rfl, ?_⟩))
    cases m <;> simp_all [modeRefuses]
  | _ => cases m <;> simp_all [modeRefuses]

/-- The decision of a command in a mode that refuses it, whatever the command carries. -/
theorem decision_of_modeRefuses {s : State} {c : Command} (h : modeRefuses c s.mod.mode = true) (b : List Byte) :
    c.decision s b = refuse s .badState := by
  by_cases hm : s.mod.mode = .halted
  · have hc : c ≠ .configure := by rintro rfl; simp [modeRefuses, hm] at h
    have hs : c ≠ .status := by rintro rfl; simp [modeRefuses] at h
    exact decision_of_halted hc hs hm b
  · obtain ⟨rfl, hr⟩ | ⟨rfl, hr⟩ | ⟨rfl, hr, hq⟩ | ⟨rfl, hr⟩ := modeRefuses_of_not_halted hm h
    · show decideConfigure s b = _
      unfold decideConfigure
      dsimp only
      split
      iterate 3 rfl
      all_goals contradiction
    · show decideStart s b = _
      unfold decideStart
      split
      · contradiction
      all_goals rfl
    · show decideStop s b = _
      unfold decideStop
      split
      iterate 2 contradiction
      all_goals rfl
    · simp [Command.decision, decideAbort, hr]

/-- Settles O8, by the command's decision in a mode that refuses it. -/
theorem commandsRefusedByMode : Obligations.CommandsRefusedByMode := by
  unfold Obligations.CommandsRefusedByMode
  intro s c r rest h hm
  obtain ⟨-, -, -, -, hn, -, -⟩ := id h
  rw [dispatchEvent_of_command hn]
  exact exec_refused h (decision_of_modeRefuses (s := s.taken rest) hm r.body)

/-! ## The refusals of CONFIGURE -/

/-- The ranges of R159, field by field; a lower bound of 0 asks nothing. -/
theorem valid_iff (raw : RawConfiguration) : raw.valid = true ↔
    (10000 ≤ raw.roundUs ∧ raw.roundUs ≤ 250000)
    ∧ (2000 ≤ raw.promptPeriodUs ∧ raw.promptPeriodUs ≤ 50000 ∧ raw.promptPeriodUs ≤ raw.roundUs)
    ∧ raw.promptSync ≤ 1 ∧ raw.promptPm ≤ 500 ∧ raw.groupPm ≤ 300
    ∧ (100 ≤ raw.freeFloorPm ∧ raw.freeFloorPm ≤ 1000)
    ∧ (raw.freeFloorPm ≤ raw.freeInitialPm ∧ raw.freeInitialPm ≤ 1000)
    ∧ raw.orderOverheadUs ≤ 500 ∧ raw.subframeUs ≤ 50 ∧ (500 ≤ raw.orderMaxUs ∧ raw.orderMaxUs ≤ 5000)
    ∧ (1 ≤ raw.orderMaxFrames ∧ raw.orderMaxFrames ≤ 16) ∧ (1 ≤ raw.window ∧ raw.window ≤ 4)
    ∧ (1 ≤ raw.orderTimeoutMs ∧ raw.orderTimeoutMs ≤ 255) ∧ (1 ≤ raw.lossLimit ∧ raw.lossLimit ≤ 15)
    ∧ raw.requeueMax ≤ 3 ∧ (4 ≤ raw.laneLimit ∧ raw.laneLimit ≤ 256) ∧ raw.debtLimitUs ≤ 65535 ∧ raw.spill ≤ 1
    ∧ raw.reportEvery ≤ 16 ∧ raw.blankMs ≤ 2000 ∧ (2 ≤ raw.groupRate ∧ raw.groupRate ≤ 2400)
    ∧ (2 ≤ raw.defaultRate ∧ raw.defaultRate ≤ 2400) ∧ raw.attnMode ≤ 1 ∧ raw.attnActive ≤ 1 := by
  simp only [RawConfiguration.valid, Bool.and_eq_true, inRange_iff, decide_eq_true_eq, Nat.zero_le, true_and, and_assoc]

/-- The checks of CONFIGURE in the modes that take it: the ranges first, then the entries that are not FREE (R160). -/
theorem decideConfigure_checks {s : State} {b : List Byte} {raw : RawConfiguration}
    (hm : s.mod.mode = .halted ∨ s.mod.mode = .ready) (hraw : raw = parseConfigure b) :
    (raw.useDefaults = false → raw.valid = false → decideConfigure s b = refuse s .badRange)
      ∧ (raw.useDefaults = true ∨ raw.valid = true → s.fpl.freeEntries ≠ 4096 →
        decideConfigure s b = refuse s .badState) := by
  subst hraw
  refine ⟨fun hu hv => ?_, fun hok hf => ?_⟩
  · unfold decideConfigure
    rcases hm with hm | hm <;> simp [hm, hu, hv]
  · have hpass : (!(parseConfigure b).useDefaults && !(parseConfigure b).valid) = false := by
      rcases hok with h | h <;> simp [h]
    unfold decideConfigure
    rcases hm with hm | hm <;> simp [hm, hpass, hf, Config.frameEntries]

theorem toConfiguration_of_useDefaults {raw : RawConfiguration} (h : raw.useDefaults = true) :
    raw.toConfiguration = .default :=
  if_pos h

/-- Settles O13: the two checks in their order, the ranges, and the record that the fields write. -/
theorem configureRefusals : Obligations.ConfigureRefusals := by
  unfold Obligations.ConfigureRefusals
  intro s r rest raw h hm hraw
  obtain ⟨hrange, hstate⟩ := decideConfigure_checks (s := s.taken rest) hm hraw
  refine ⟨fun hu hv => exec_refused h (hrange hu hv), fun hok hf => exec_refused h (hstate hok hf),
    toConfiguration_of_useDefaults, toConfiguration_inRanges, valid_iff raw, fun hu => ?_⟩
  unfold RawConfiguration.toConfiguration
  simp only [hu, Bool.false_eq_true, if_false, beq_iff_eq]

end Sys2Proof.Machine
end

section
/-! The part under RESET_N (R168, R173, R187), STATUS (R172), and ALERT (R170). -/
namespace Sys2Proof.Machine

/-! ## RESET_N -/

/-- Every row but those of the pin itself and of the transactions waits for the release of RESET_N (R168). -/
theorem exec_whenReleased {c : Instr} (hp : c ≠ .pinReset) (hr : c ≠ .resetNRelease)
    (hd : ∀ b, c ≠ .directionByte b) (hw : ∀ bytes, c ≠ .writeTransaction bytes) (hrd : ∀ n, c ≠ .readTransaction n)
    (hi : ∀ n, c ≠ .idleTransaction n) : ∃ f : State → State, ∀ s, exec c s = s.whenReleased f := by
  cases c with
  | pinReset => exact absurd rfl hp
  | resetNRelease => exact absurd rfl hr
  | directionByte b => exact absurd rfl (hd b)
  | writeTransaction bytes => exact absurd rfl (hw bytes)
  | readTransaction n => exact absurd rfl (hrd n)
  | idleTransaction n => exact absurd rfl (hi n)
  | _ => exact ⟨_, fun _ => rfl⟩

/-- An event of a transaction under RESET_N: filler for every byte clocked, and nothing else (R173). -/
theorem whenSelected_filler {s : State} (h : s.resetN = true) (n : Nat) (f : State → State) :
    s.whenSelected n f = .next { s with cli := { s.cli with sdo := List.replicate (n + 1) 0xFF#8 } } := by
  rw [whenSelected_of_asserted n f h, returnFiller_eq]

/-- Settles O2: the pin's own rows, the rows that wait for its release, the transactions under it, and the values. -/
theorem pinResetClearsThePart : Obligations.PinResetClearsThePart := by
  unfold Obligations.PinResetClearsThePart
  refine ⟨fun _ => rfl, fun s c h hp hr hd hw hrd hi => ?_, fun s b h => whenSelected_filler h 0 (·.takeDirection b),
    fun s bytes h => whenSelected_filler h bytes.length (·.endWrite bytes),
    fun s n h => ⟨whenSelected_filler h n (·.endRead n), whenSelected_filler h n (·.endIdle n)⟩,
    fun _ => rfl, fun _ => rfl, rfl, rfl, rfl, rfl, rfl, rfl, rfl, rfl, ?_, rfl, rfl⟩
  · obtain ⟨f, hf⟩ := exec_whenReleased hp hr hd hw hrd hi
    rw [hf, whenReleased_of_asserted f h]
  · decide

/-! ## STATUS -/

/-- Settles O19: the decision of STATUS reads the part, and the record it takes is none of the figures. -/
theorem statusReportsThePart : Obligations.StatusReportsThePart := by
  unfold Obligations.StatusReportsThePart
  intro s r rest h
  have hd : decideStatus (s.taken rest) r.body = (s.taken rest, .status s.statusBody) := rfl
  exact exec_unchanged h (by simp) hd

/-! ## ALERT -/

theorem exec_alert {s : State} (h : s.resetN = false) : exec .alert s = .next s.formAlert := by
  show execAlert s = _
  unfold execAlert
  rw [whenReleased_of_released _ h]

/-- An ALERT waits for pending-alert and for two free slots (R170, R178). -/
theorem alertDue_iff (s : State) :
    s.alertDue = true ↔ s.mod.pendingAlert = true ∧ s.cli.outbound.length + 2 ≤ 16 := by
  have hf : 2 ≤ s.outFree ↔ s.cli.outbound.length + 2 ≤ 16 := by
    simp only [State.outFree, Config.controlOutbound]
    omega
  simp [State.alertDue, hf]

theorem formAlert_of_due {s : State} (h : s.alertDue = true) : s.formAlert = { s with
    cli := s.noticed (.alert s.mod.mode s.mod.causes s.mgd.capture)
    mod := { s.mod with pendingAlert := false, alertsSent := min (s.mod.alertsSent + 1) 4294967295 } } := by
  unfold State.formAlert
  rw [if_pos h, pushOut_eq]
  rfl

theorem formAlert_of_not_due {s : State} (h : ¬ s.alertDue = true) : s.formAlert = s :=
  if_neg h

/-- Settles O30: the notice where it is due, and nothing without the flag or the slots. -/
theorem alertReportsThePart : Obligations.AlertReportsThePart := by
  unfold Obligations.AlertReportsThePart
  intro s h
  rw [exec_alert h]
  refine ⟨fun hp ho => ?_, fun hno => ?_⟩
  · rw [formAlert_of_due ((alertDue_iff s).mpr ⟨hp, ho⟩)]
  · have hnot : ¬ s.alertDue = true := fun hdue => by
      obtain ⟨hp, ho⟩ := (alertDue_iff s).mp hdue
      rcases hno with hno | hno
      · exact absurd (hno.symm.trans hp) Bool.false_ne_true
      · omega
    rw [formAlert_of_not_due hnot]

end Sys2Proof.Machine
end

section
/-!
StepKeepsTheQueues: the Radio Link's capacities (R182, R184). What the arbiter's three sources place fits in the free
slots and leaves the head of the outbound queue, and so does every operation that forms a note or an order.
-/
namespace Sys2Proof.Machine

/-- RLI within its capacities: the claimed places, the outbound queue, and a record to be sent while one is begun. -/
structure Rli.Within (r : Rli) : Prop where
  places : r.inbound.length + (if r.arrival = .claimed then 1 else 0) ≤ 16
  slots : r.outbound.length ≤ 8
  begun : r.sending = true → r.outbound ≠ []

/-- Records that join the tail of the outbound queue within the free slots. -/
theorem Rli.Within.append {s t : State} (h : s.rli.Within) {xs : List RadioRecord}
    (ht : t.rli = { s.rli with outbound := s.rli.outbound ++ xs }) (hx : xs.length ≤ s.radioFree) : t.rli.Within := by
  have hslots := h.slots
  rw [ht]
  refine ⟨h.places, ?_, fun hs => by simp [h.begun hs]⟩
  simp only [State.radioFree, Config.radioOutbound] at hx
  simp only [List.length_append]
  omega

namespace Rli.Within
variable {s : State} (h : s.rli.Within)
include h

/-! ## The arbiter's sources (R183) -/

theorem giveCancel : s.giveCancel.rli.Within := by
  unfold State.giveCancel
  split
  · rename_i hc
    simp only [Bool.and_eq_true, decide_eq_true_eq] at hc
    exact h.append rfl hc.2
  · exact h

theorem giveNotes (n : Nat) : (s.giveNotes n).rli.Within := by
  refine h.append (xs := (s.stt.linkNotes.take (s.notesServed n)).map LinkNote.toRecord) rfl ?_
  have hk : s.notesServed n ≤ s.radioFree := by
    unfold State.notesServed
    split <;> omega
  simp only [List.length_map, List.length_take]
  omega

theorem giveOrders (n : Nat) : (s.giveOrders n).rli.Within := by
  refine h.append
    (xs := ((heldOrders s.ord.outstanding).take (s.ordersServed n)).map fun o => .txOrder o.toTxOrder) rfl ?_
  have hk : s.ordersServed n ≤ s.radioFree := by
    unfold State.ordersServed
    split <;> omega
  simp only [List.length_map, List.length_take]
  omega

theorem serveNotes : s.serveNotes.rli.Within :=
  h.giveCancel.giveNotes _

theorem serveOrders : s.serveOrders.rli.Within :=
  h.serveNotes.giveOrders _

theorem formNote (n : LinkNote) : (s.formNote n).rli.Within :=
  serveNotes (s := s.updStt _) h

theorem formPollEmpty (i : Nat) : (s.formPollEmpty i).rli.Within := by
  unfold State.formPollEmpty
  split
  · exact h
  · exact h.formNote _

theorem requestCancelAll : s.requestCancelAll.rli.Within :=
  giveCancel (s := s.updOrd _) h

/-! ## Lanes, orders, conclusions -/

theorem laneEmpty (i : Nat) (l : Lane) : (s.laneEmpty i l).rli.Within := by
  unfold State.laneEmpty
  dsimp only
  split
  · exact h
  · split
    · split <;> split <;> simpa using h
    · split
      · exact formPollEmpty (by simpa using h) i
      · exact h
    · exact h
    · exact h
    · exact h

theorem lowerInFlight (i : Nat) : (s.lowerInFlight i).rli.Within := by
  unfold State.lowerInFlight
  dsimp only
  split
  · exact formNote (by simpa using h) _
  · exact h

theorem returnLane (i : Nat) (x : FrameResult) (l : Lane) : (s.returnLane i x l).rli.Within := by
  unfold State.returnLane
  split
  · exact h
  · exact laneEmpty (by simpa using h) i l

theorem returnLanes (i : Nat) (x : FrameResult) (ls : List Lane) : (s.returnLanes i x ls).rli.Within := by
  unfold State.returnLanes
  induction ls generalizing s with
  | nil => exact h
  | cons l ls ih => exact ih (h.returnLane i x l)

theorem flushAll : s.flushAll.rli.Within := by
  unfold State.flushAll
  generalize List.range Config.stationCount = is
  induction is generalizing s with
  | nil => exact h
  | cons i is ih => exact ih (h.returnLanes i .flushed allLanes)

theorem takeFrames (i : Nat) (l : Lane) (n : Nat) : (s.takeFrames i l n).rli.Within := by
  unfold State.takeFrames
  dsimp only
  split
  · exact laneEmpty (by simpa using h) i l
  · exact h

theorem expireFrame (r : ExpiryRef) : (s.expireFrame r).rli.Within := by
  unfold State.expireFrame
  dsimp only
  split
  · exact h
  · split
    · exact laneEmpty (by simpa using h) _ _
    · exact h

theorem issueOrder (c : Choice) (fs : List Frame) : (s.issueOrder c fs).rli.Within := by
  have htake := h.takeFrames c.station c.lane fs.length
  exact serveOrders (by simpa using htake)

theorem buildChoice (c : Choice) : (s.buildChoice c).rli.Within := by
  unfold State.buildChoice State.emptyChoice
  split
  · dsimp only
    split
    · exact formPollEmpty (by simpa using h) _
    · exact h
  · exact h.issueOrder c _

theorem buildOrder : s.buildOrder.rli.Within := by
  unfold State.buildOrder
  split
  · exact h
  · have hbuild := buildChoice (s := s.updSel fun e => { e with choice := none }) h
    simpa using hbuild _

theorem buildOrders (n : Nat) : (State.buildOrders n s).rli.Within := by
  induction n generalizing s with
  | zero => exact h
  | succ n ih =>
    unfold State.buildOrders
    split
    · exact ih h.buildOrder
    · exact h

theorem settle : s.settle.rli.Within :=
  h.buildOrders 8

theorem acceptOutcome (o : Order) (x : Outcome) : (s.acceptOutcome o x).rli.Within :=
  lowerInFlight (by simpa using h) o.station

theorem loseOrder (o : Order) : (s.loseOrder o).rli.Within :=
  lowerInFlight (by simpa using h) o.station

theorem cancelOrder (o : Order) : (s.cancelOrder o).rli.Within :=
  lowerInFlight (by simpa using h) o.station

theorem cancelOrders : s.cancelOrders.rli.Within := by
  unfold State.cancelOrders
  generalize s.ord.outstanding = os
  induction os generalizing s with
  | nil => exact h.requestCancelAll
  | cons o os ih => exact ih (h.cancelOrder o)

theorem softReset : s.softReset.rli.Within := by
  have hf : s.softResetOrders.flushAll.rli.Within := flushAll (cancelOrders (s := s.updOrd _) h)
  exact ⟨by simpa using hf.places, by simpa [State.softReset] using hf.slots,
    by simpa [State.softReset] using hf.begun⟩

theorem releaseStation (i : Nat) : (s.releaseStation i).rli.Within := by
  unfold State.releaseStation
  dsimp only
  split
  · exact formNote (by simpa using h) _
  · simpa using h

end Rli.Within

/-! ## The decisions of the commands -/

/-- The commands whose decisions put a record in line for the MAC (R5, R7, R38, R166, R167). -/
def Command.speaks (c : Command) : Bool :=
  match c with
  | .abort | .reset | .admitStation | .release | .flush => true
  | _ => false

/-- The other commands leave RLI alone. -/
theorem decision_rli_of_not_speaks {c : Command} (hc : c.speaks = false) (s : State) (b : List Byte) :
    (c.decision s b).1.rli = s.rli := by
  cases c with
  | abort | reset | admitStation | release | flush => exact absurd hc (by decide)
  | _ =>
    simp only [Command.decision, decideConfigure, decideStart, decideStop, decideQuiet, decideResume, decideStatus,
      decideSetWeight, decideHold, decideEnqueue, decideSetCohort, decideQuery, accept, refuse]
    repeat' split
    all_goals simp

namespace Rli.Within
variable {s : State} (h : s.rli.Within)
include h

theorem decideAbort (b : List Byte) : (decideAbort s b).1.rli.Within := by
  have habort : s.cancelOrders.enterReady.rli.Within := by simpa using h.cancelOrders
  unfold Machine.decideAbort
  split
  · exact habort
  · exact habort
  · exact habort
  · exact h
  · exact h

theorem decideReset (b : List Byte) : (decideReset s b).1.rli.Within := by
  unfold Machine.decideReset
  split
  · exact h
  all_goals exact h.softReset

theorem decideAdmit (b : List Byte) : (decideAdmit s b).1.rli.Within := by
  unfold Machine.decideAdmit
  dsimp only
  iterate 5
    split
    · exact h
  exact formNote (by simpa using h) _

theorem decideRelease (b : List Byte) : (decideRelease s b).1.rli.Within := by
  unfold Machine.decideRelease
  dsimp only
  iterate 3
    split
    · exact h
  exact (h.releaseStation _).returnLanes _ _ _

theorem decideFlush (b : List Byte) : (decideFlush s b).1.rli.Within := by
  unfold Machine.decideFlush
  dsimp only
  iterate 3
    split
    · exact h
  split
  · exact h
  · exact h.returnLanes _ _ _

theorem decision (c : Command) (b : List Byte) : (c.decision s b).1.rli.Within := by
  cases c with
  | abort => exact h.decideAbort b
  | reset => exact h.decideReset b
  | admitStation => exact h.decideAdmit b
  | release => exact h.decideRelease b
  | flush => exact h.decideFlush b
  | _ =>
    rw [decision_rli_of_not_speaks rfl]
    exact h

/-! ## The records that the RLI delivers, and the deadlines -/

theorem timeOutOrder (o : Order) : (s.timeOutOrder o).rli.Within := by
  have hlose := h.loseOrder o
  simpa [State.timeOutOrder] using hlose

theorem takeOutcome (x : Outcome) : (s.takeOutcome x).rli.Within := by
  unfold State.takeOutcome
  split
  · rename_i o _
    have haccept := h.acceptOutcome o x
    simpa using haccept
  · split <;> exact h

theorem takePoll (i : Nat) : (s.takePoll i).rli.Within := by
  unfold State.takePoll State.grantPoll
  split
  · exact h
  · split
    · exact h.formPollEmpty i
    · simpa using h
  · exact h

end Rli.Within
end Sys2Proof.Machine
end

section
/-!
StepKeepsTheQueues: the Control Link's capacities and the ATTN pulses (R174, R176, R178, R179), the rows of the two
links, and with them every step.
-/
namespace Sys2Proof.Machine

/-! ## CLI -/

/-- CLI within its capacities: its two queues, the place that a READY answer has promised, and the pulse backlog. -/
structure Cli.Within (c : Cli) : Prop where
  inbound : c.inbound.length ≤ 8
  reserved : c.transaction = some (.write true) → c.inbound.length < 8
  outbound : c.outbound.length ≤ 16
  backlog : c.backlog ≤ 255
  pulse : c.pulse ≠ none ↔ 0 < c.backlog

/-- A backlog is held in PULSE operation alone (R179). -/
def State.PulseOnly (s : State) : Prop :=
  s.mod.attnOperation ≠ some .pulse → s.cli.backlog = 0

theorem queueInv_iff (s : State) : s.QueueInv ↔ s.cli.Within ∧ s.rli.Within ∧ s.PulseOnly :=
  ⟨fun h => ⟨⟨h.controlInbound, h.reserved, h.controlOutbound, h.backlog, h.pulse⟩,
      ⟨h.radioInbound, h.radioOutbound, h.sending⟩, h.pulseOnly⟩,
    fun ⟨hc, hr, hp⟩ => ⟨hc.inbound, hc.reserved, hc.outbound, hc.backlog, hc.pulse, hp, hr.places, hr.slots, hr.begun⟩⟩

/-- What an operation of the other blocks leaves to CLI: its own state and the ATTN operation in force. -/
@[simp] def State.SameCli (s t : State) : Prop :=
  t.cli = s.cli ∧ t.mod.config = s.mod.config ∧ t.mod.configValid = s.mod.configValid

theorem State.SameCli.attnOperation {s t : State} (h : s.SameCli t) : t.mod.attnOperation = s.mod.attnOperation := by
  obtain ⟨-, hc, hv⟩ := h
  simp only [Mod.attnOperation, hc, hv]

namespace Cli.Within
variable {c : Cli} (h : c.Within)
include h

theorem congr {d : Cli} (hi : d.inbound = c.inbound) (ho : d.outbound = c.outbound)
    (ht : d.transaction = c.transaction) (hb : d.backlog = c.backlog) (hp : d.pulse = c.pulse) : d.Within := by
  obtain ⟨h1, h2, h3, h4, h5⟩ := h
  constructor <;> simpa only [hi, ho, ht, hb, hp]

/-- The head of the inbound queue leaves it (R177). -/
theorem dropInbound : { c with inbound := c.inbound.drop 1 }.Within where
  inbound := by have := h.inbound; simp only [List.length_drop]; omega
  reserved ht := by have := h.reserved ht; simp only [List.length_drop]; omega
  outbound := h.outbound
  backlog := h.backlog
  pulse := h.pulse

/-- A record takes a free slot of the outbound queue, and in PULSE operation a pulse stands behind it (R178, R179). -/
theorem pushed (hfree : c.outbound.length < 16) (now : Time) (op : Option AttnMode) (x : OutRecord) :
    (Cli.pushed c now op x).Within where
  inbound := h.inbound
  reserved := h.reserved
  outbound := by simp only [pushed_outbound, List.length_append, List.length_singleton]; omega
  backlog := by
    have := h.backlog
    simp only [Cli.pushed]
    split <;> omega
  pulse := by
    have := h.pulse
    by_cases hop : op = some .pulse
    · by_cases hp : c.pulse = none <;> simp [Cli.pushed, hop, hp]
    · simpa [Cli.pushed, hop] using this

/-- The record of a READY WRITE takes the place promised to it, or none (R174). -/
theorem receive (bytes : List Byte) (hplace : c.inbound.length < 8) :
    (c.receive bytes).inbound.length ≤ 8 ∧ (c.receive bytes).outbound = c.outbound
      ∧ (c.receive bytes).backlog = c.backlog ∧ (c.receive bytes).pulse = c.pulse := by
  unfold Cli.receive
  split
  · exact ⟨h.inbound, rfl, rfl, rfl⟩
  · refine ⟨?_, rfl, rfl, rfl⟩
    simp only [List.length_append, List.length_singleton]
    omega

end Cli.Within

/-! ## Dispatch -/

theorem outFree_pos_iff (s : State) : 0 < s.outFree ↔ s.cli.outbound.length < 16 := by
  simp only [State.outFree, Config.controlOutbound]
  omega

theorem outFree_of_dispatchable {s : State} {wanted : Byte → Bool} {r : HostRecord}
    (h : s.dispatchable wanted = some r) : s.cli.outbound.length < 16 := by
  unfold State.dispatchable at h
  split at h
  · cases h
  · split at h
    · rename_i hw
      rw [Bool.and_eq_true, decide_eq_true_eq, outFree_pos_iff] at hw
      exact hw.2
    · cases h

/-- Only CONFIGURE writes the record that names the ATTN operation (R160, R179). -/
theorem decision_attnOperation {c : Command} (hc : c ≠ .configure) (s : State) (b : List Byte) :
    (c.decision s b).1.mod.attnOperation = s.mod.attnOperation := by
  have hkept : (c.decision s b).1.mod.config = s.mod.config
      ∧ (c.decision s b).1.mod.configValid = s.mod.configValid := by
    cases c with
    | configure => exact absurd rfl hc
    | _ =>
      simp only [Command.decision, decideStart, decideStop, decideAbort, decideReset, decideQuiet, decideResume,
        decideStatus, decideAdmit, decideRelease, decideSetWeight, decideHold, decideEnqueue, decideFlush,
        decideSetCohort, decideQuery, accept, refuse]
      repeat' split
      all_goals simp
  obtain ⟨hcfg, hv⟩ := hkept
  simp only [Mod.attnOperation, hcfg, hv]

/-- What the decision of the command at the head leaves in the links ahead of its reply: the record gone from the
inbound queue, the rest of CLI as it was (R177). -/
structure State.Answering (s : State) (c : Command) (u : State) : Prop where
  inbound : u.cli.inbound = s.cli.inbound.drop 1
  outbound : u.cli.outbound = s.cli.outbound
  transaction : u.cli.transaction = s.cli.transaction
  sdo : u.cli.sdo = s.cli.sdo
  backlog : u.cli.backlog = s.cli.backlog
  pulse : u.cli.pulse = s.cli.pulse
  rli : s.rli.Within → u.rli.Within
  attnOperation : c ≠ .configure → u.mod.attnOperation = s.mod.attnOperation

theorem answering_settle (s : State) (c : Command) : s.Answering c s.settle.popInbound := by
  refine ⟨?_, ?_, ?_, ?_, ?_, ?_, fun h => h.settle, fun _ => ?_⟩
  all_goals simp [State.popInbound, Mod.attnOperation]

theorem answering_decision (s : State) (c : Command) (b : List Byte) :
    s.Answering c (c.decision s.settle.popInbound b).1 := by
  obtain ⟨h1, h2, h3, h4, h5, h6, h7, h8⟩ := answering_settle s c
  exact ⟨by simpa only [decision_keeps] using h1, by simpa only [decision_keeps] using h2,
    by simpa only [decision_keeps] using h3, by simpa only [decision_keeps] using h4,
    by simpa only [decision_keeps] using h5, by simpa only [decision_keeps] using h6, fun h => (h7 h).decision c b,
    fun hc => (decision_attnOperation hc _ b).trans (h8 hc)⟩

/-- A command that is dispatched ends in its one reply, whatever its owner decides (R177). -/
theorem dispatch_of_dispatchable {s : State} {c : Command} {r : HostRecord} (hr : s.dispatchable (names c) = some r) :
    ∃ (u : State) (reply : Reply),
      s.dispatch c c.decision = u.pushOut (.reply r.typ r.tag reply) ∧ s.Answering c u := by
  unfold State.dispatch
  rw [hr]
  dsimp only
  split
  · exact ⟨_, _, rfl, answering_decision s c r.body⟩
  · exact ⟨_, _, rfl, answering_settle s c⟩

theorem dispatch_of_not_dispatchable {s : State} {c : Command} (h : s.dispatchable (names c) = none)
    (d : State → List Byte → State × Reply) : s.dispatch c d = s := by
  unfold State.dispatch
  rw [h]

theorem State.Answering.within {s u : State} {c : Command} (h : s.Answering c u) (hs : s.cli.Within) : u.cli.Within :=
  hs.dropInbound.congr h.inbound h.outbound h.transaction h.backlog h.pulse

/-! ## The whole part -/

/-- An ATTN operation that has changed has discarded the backlog and the pulse (R179). -/
theorem queueInv_of_reformed {s : State} {before : Option AttnMode} (hop : s.mod.attnOperation ≠ before)
    (hc : s.cli.Within) (hr : s.rli.Within) : (s.reformAttn before).QueueInv := by
  unfold State.reformAttn
  rw [if_neg hop]
  exact (queueInv_iff _).mpr ⟨⟨hc.inbound, hc.reserved, hc.outbound, Nat.zero_le _, by simp⟩, hr, fun _ => rfl⟩

namespace State.QueueInv
variable {s t : State} (h : s.QueueInv)
include h

theorem cli : s.cli.Within := ((queueInv_iff s).mp h).1
theorem rli : s.rli.Within := ((queueInv_iff s).mp h).2.1
theorem pulses : s.PulseOnly := ((queueInv_iff s).mp h).2.2

/-- What RLI and the blocks do without CLI. -/
theorem of_sameCli (hc : s.SameCli t) (hr : t.rli.Within) : t.QueueInv := by
  refine (queueInv_iff t).mpr ⟨hc.1 ▸ h.cli, hr, ?_⟩
  unfold State.PulseOnly
  rw [hc.attnOperation, hc.1]
  exact h.pulses

/-- What CLI does without RLI and without a record for the host. -/
theorem of_cli (hr : t.rli = s.rli) (hm : t.mod = s.mod) (hc : t.cli.Within) (hb : t.cli.backlog ≤ s.cli.backlog) :
    t.QueueInv := by
  refine (queueInv_iff t).mpr ⟨hc, hr ▸ h.rli, fun hop => ?_⟩
  have h0 := h.pulses (hm ▸ hop)
  omega

theorem pushOut (hfree : s.cli.outbound.length < 16) (x : OutRecord) : (s.pushOut x).QueueInv := by
  rw [pushOut_eq]
  refine (queueInv_iff _).mpr ⟨h.cli.pushed hfree _ _ x, h.rli, fun hop => ?_⟩
  simpa [Cli.pushed, hop] using h.pulses hop

theorem settle : s.settle.QueueInv :=
  h.of_sameCli (by simp) h.rli.settle

/-! ## Dispatch and delivery -/

/-- The row of a host command: a CONFIGURE that changes the ATTN operation ends the pulses behind its reply (R179). -/
theorem command (c : Command) (ht : Machine.exec c.event s = .next t) : t.QueueInv := by
  rw [exec_event] at ht
  obtain rfl | rfl := whenReleased_next ht
  · exact h
  cases hr : s.dispatchable (names c) with
  | none =>
    rw [dispatch_of_not_dispatchable hr, reformAttn_same, ite_self]
    exact h
  | some r =>
    obtain ⟨u, reply, hd, hu⟩ := dispatch_of_dispatchable hr
    have hfree : u.cli.outbound.length < 16 := hu.outbound ▸ outFree_of_dispatchable hr
    rw [hd]
    by_cases hop : u.mod.attnOperation = s.mod.attnOperation
    · have hq : u.QueueInv := (queueInv_iff u).mpr
        ⟨hu.within h.cli, hu.rli h.rli, fun hne => hu.backlog.trans (h.pulses (hop ▸ hne))⟩
      have hsame : (u.pushOut (.reply r.typ r.tag reply)).reformAttn s.mod.attnOperation
          = u.pushOut (.reply r.typ r.tag reply) := by
        rw [← hop]
        exact reformAttn_same (u.pushOut _)
      rw [hsame, ite_self]
      exact hq.pushOut hfree _
    · have hc : c = .configure := by_contra fun hc => hop (hu.attnOperation hc)
      have hpush : (u.pushOut (.reply r.typ r.tag reply)).cli.Within :=
        pushOut_cli u _ ▸ (hu.within h.cli).pushed hfree _ _ _
      rw [if_pos hc]
      exact queueInv_of_reformed hop hpush (hu.rli h.rli)

theorem rejectUnknown : s.rejectUnknown.QueueInv := by
  unfold State.rejectUnknown
  split
  · exact h
  · rename_i r hr
    have hfree := outFree_of_dispatchable hr
    have hpop : s.settle.popInbound.QueueInv :=
      h.settle.of_cli rfl rfl h.settle.cli.dropInbound le_rfl
    exact hpop.pushOut (by simpa [State.popInbound] using hfree) _

/-- A delivery: the record leaves its place, and its owner takes it from a part that keeps its capacities (R186). -/
theorem deliver {take : MacRecord → Option (State → State)}
    (ht : ∀ (r : MacRecord) (f : State → State) (u : State), take r = some f → u.QueueInv → (f u).QueueInv) :
    (s.deliver take).QueueInv := by
  unfold State.deliver
  split
  · exact h
  · split
    · exact h
    · refine ht _ _ _ ‹_› (h.settle.of_sameCli (by simp) ?_)
      obtain ⟨hplaces, hslots, hbegun⟩ := h.settle.rli
      exact ⟨(Nat.add_le_add_right (by simp) _).trans hplaces, hslots, hbegun⟩

theorem takeOutcome (x : Outcome) : (s.takeOutcome x).QueueInv := by
  refine h.of_sameCli ?_ (h.rli.takeOutcome x)
  unfold State.takeOutcome
  split
  · simp
  · split <;> simp

/-- A medium record reaches neither link (R144 to R150). -/
theorem takeMedium {f : State → State} (hf : s.SameCli (f s)) (hr : (f s).rli = s.rli) :
    (State.takeMedium f s).QueueInv := by
  unfold State.takeMedium
  split
  · exact h.of_sameCli (by simp) h.rli
  · exact h.of_sameCli hf (hr ▸ h.rli)

theorem takeReport (pm : Nat) : (State.takeMedium (State.takeReport pm) s).QueueInv := by
  refine h.takeMedium ?_ ?_ <;> unfold State.takeReport <;> split <;> simp

theorem takeAlert (c : AlertCause) : (State.takeMedium (State.takeAlert c) s).QueueInv :=
  h.takeMedium (by simp [State.takeAlert]) (by simp [State.takeAlert])

theorem takeClear : (State.takeMedium State.takeClear s).QueueInv :=
  h.takeMedium (by simp [State.takeClear]) (by simp [State.takeClear])

theorem takeDoze (i : Nat) : (s.takeDoze i).QueueInv := by
  unfold State.takeDoze
  split
  · exact h.of_sameCli (by simp) (by simpa using h.rli)
  · exact h
  · exact h.of_sameCli (by simp) (by simpa using h.rli)

theorem takeWake (i : Nat) : (s.takeWake i).QueueInv := by
  unfold State.takeWake
  split
  · exact h.of_sameCli (by simp) (by simpa using h.rli)
  · exact h.of_sameCli (by simp) (by simpa using h.rli)
  · exact h

theorem takePoll (i : Nat) : (s.takePoll i).QueueInv := by
  refine h.of_sameCli ?_ (h.rli.takePoll i)
  unfold State.takePoll State.grantPoll
  split
  · simp
  · split <;> simp
  · simp

/-! ## Deadlines -/

theorem takeExpiry : s.takeExpiry.QueueInv := by
  unfold State.takeExpiry
  split
  · exact h
  · split
    · exact h.of_sameCli (by simp) (h.rli.expireFrame _)
    · unfold State.expireDue
      split
      · exact h.settle
      · exact h.settle.of_sameCli (by simp) (h.settle.rli.expireFrame _)

theorem takeTimeout : s.takeTimeout.QueueInv := by
  unfold State.takeTimeout
  split
  · exact h
  · exact h.settle.of_sameCli (by simp) (h.settle.rli.timeOutOrder _)

theorem expireBlanking : s.expireBlanking.QueueInv := by
  unfold State.expireBlanking
  split
  · exact h.of_sameCli (by simp) h.rli
  · exact h

/-- A due USAGE_REPORT is placed where two slots are free (R79, R81). -/
theorem placeReport : s.placeReport.QueueInv := by
  unfold State.placeReport
  split
  · rename_i hfree
    have hpush := h.pushOut ((outFree_pos_iff s).mp (by omega)) (.usageReport s.usageReport)
    exact hpush.of_sameCli (by simp) hpush.rli
  · exact h.of_sameCli (by simp) h.rli

theorem closeRound : s.closeRound.QueueInv := by
  unfold State.closeRound
  split
  · exact h
  · split
    · exact placeReport (h.of_sameCli (by simp) h.rli)
    · exact h.of_sameCli (by simp) h.rli

theorem takeRoundBoundary : s.takeRoundBoundary.QueueInv := by
  unfold State.takeRoundBoundary
  split
  · refine h.settle.closeRound.of_sameCli ?_ ?_
    · unfold State.makeRoundBoundary
      dsimp only
      split <;> simp
    · simpa using h.settle.rli
  · exact h

theorem takePromptBoundary : s.takePromptBoundary.QueueInv := by
  unfold State.takePromptBoundary
  split
  · exact h.settle.of_sameCli (by simp) (by simpa using h.settle.rli)
  · exact h

theorem buildOrder : s.buildOrder.QueueInv :=
  h.of_sameCli (by simp) h.rli.buildOrder

/-! ## The links' own rows -/

theorem returnFiller (n : Nat) : (s.returnFiller n).QueueInv :=
  h.of_cli rfl rfl (h.cli.congr rfl rfl rfl rfl rfl) le_rfl

/-- A WRITE is READY only while a place is free, and promises that place (R174). -/
theorem takeDirection (b : Byte) : (s.takeDirection b).QueueInv := by
  unfold State.takeDirection
  split
  · exact h
  · refine h.of_cli rfl rfl ⟨h.cli.inbound, fun ht => ?_, h.cli.outbound, h.cli.backlog, h.cli.pulse⟩ le_rfl
    simp only [updCli_cli, Option.some.injEq, State.transactionFor] at ht
    split at ht
    · simpa [Config.controlInbound] using ht
    · split at ht <;> cases ht

theorem endWrite (bytes : List Byte) : (s.endWrite bytes).QueueInv := by
  unfold State.endWrite
  split
  · rename_i ready ht
    cases ready
    · exact h.of_cli rfl rfl ⟨h.cli.inbound, nofun, h.cli.outbound, h.cli.backlog, h.cli.pulse⟩ le_rfl
    · obtain ⟨hin, hout, hb, hp⟩ := h.cli.receive bytes (h.cli.reserved ht)
      refine h.of_cli rfl rfl ⟨hin, nofun, hout ▸ h.cli.outbound, hb ▸ h.cli.backlog, ?_⟩ hb.le
      simpa [hb, hp] using h.cli.pulse
  · exact h.returnFiller _
  · exact h

theorem endRead (n : Nat) : (s.endRead n).QueueInv := by
  unfold State.endRead
  split
  · refine h.of_cli rfl rfl ⟨h.cli.inbound, nofun, ?_, h.cli.backlog, h.cli.pulse⟩ le_rfl
    have hout := h.cli.outbound
    simp only [updCli_cli]
    split
    · simp only [List.length_drop]
      omega
    · exact hout
  · exact h.returnFiller _
  · exact h

theorem endIdle (n : Nat) : (s.endIdle n).QueueInv := by
  unfold State.endIdle
  split
  · exact h.of_cli rfl rfl ⟨h.cli.inbound, nofun, h.cli.outbound, h.cli.backlog, h.cli.pulse⟩ le_rfl
  · exact h.returnFiller _
  · exact h

theorem formTokenReturn : s.formTokenReturn.QueueInv := by
  unfold State.formTokenReturn
  split
  · rename_i hdue
    have hfree : 2 ≤ s.outFree := by
      rw [State.tokenReturnDue, Bool.and_eq_true, decide_eq_true_eq] at hdue
      exact hdue.2
    have hpush := h.pushOut ((outFree_pos_iff s).mp (by omega))
      (.tokenReturn ((s.fpl.returnList.take Config.tokensPerReturn).map fun e => (e.frame.token, e.result)))
    exact hpush.of_sameCli (by simp) hpush.rli
  · exact h

theorem formAlert : s.formAlert.QueueInv := by
  unfold State.formAlert
  split
  · rename_i hdue
    have hfree := ((alertDue_iff s).mp hdue).2
    have hpush := h.pushOut (by omega) (.alert s.mod.mode s.mod.causes s.mgd.capture)
    exact hpush.of_sameCli (by simp) hpush.rli
  · exact h

/-- A pulse that ends takes 1 off the backlog, and the next begins while it stays above 0 (R179). -/
theorem endPulse : s.endPulse.QueueInv := by
  unfold State.endPulse
  split
  · have hb := h.cli.backlog
    refine h.of_cli rfl rfl ⟨h.cli.inbound, h.cli.reserved, h.cli.outbound, ?_, ?_⟩ (Nat.sub_le _ 1)
    · exact (Nat.sub_le _ 1).trans hb
    · by_cases hnext : 1 < s.cli.backlog
      · simp [hnext]
      · simp only [updCli_cli, if_neg hnext]
        simp
        omega
  · exact h

/-- A record that has claimed a place keeps it as it joins the queue, or gives it up (R185). -/
theorem endRecord (framed : List Byte) (closed : Bool) : (s.endRecord framed closed).QueueInv := by
  obtain ⟨hplaces, hslots, hbegun⟩ := h.rli
  unfold State.endRecord
  split
  · exact h
  · rename_i ha
    refine h.of_sameCli (by simp) ⟨?_, hslots, hbegun⟩
    simpa [ha] using hplaces
  · rename_i ha
    rw [ha, if_pos rfl] at hplaces
    refine h.of_sameCli (by simp) ?_
    simp only [updRli_rli, Rli.takeRecord]
    split
    · exact ⟨by simp; omega, hslots, hbegun⟩
    · exact ⟨by simpa using hplaces, hslots, hbegun⟩

/-- A new record claims a place only while one is free (R184). -/
theorem startRecord (cut : List Byte) : (s.startRecord cut).QueueInv := by
  have hend := h.endRecord cut false
  unfold State.startRecord
  dsimp only
  generalize s.endRecord cut false = u at hend
  obtain ⟨hplaces, hslots, hbegun⟩ := hend.rli
  split
  · rename_i hrdy
    refine hend.of_sameCli (by simp) ⟨?_, hslots, hbegun⟩
    have hfree : u.claimedPlaces < 16 := by
      rw [State.partRdy, Bool.and_eq_true, decide_eq_true_eq] at hrdy
      exact hrdy.2
    simp only [State.claimedPlaces] at hfree
    simp only [updRli_rli, if_true]
    omega
  · refine hend.of_sameCli (by simp) ⟨?_, hslots, hbegun⟩
    simp
    omega

theorem beginSending (macRdy : Bool) : (s.beginSending macRdy).QueueInv := by
  unfold State.beginSending
  split
  · rename_i hb
    refine h.of_sameCli (by simp) ⟨h.rli.places, h.rli.slots, fun _ he => ?_⟩
    simp only [updRli_rli] at he
    simp [he] at hb
  · exact h

theorem finishSending : s.finishSending.QueueInv := by
  have hslots := h.rli.slots
  unfold State.finishSending
  split
  · exact h
  · rename_i x rest hout
    rw [hout, List.length_cons] at hslots
    split
    · exact h.of_sameCli (by simp) ⟨h.rli.places, by simp; omega, nofun⟩
    · exact h

/-! ## Every row of the table -/

theorem whenReleased {f : State → State} (ht : s.whenReleased f = .next t) (hf : (f s).QueueInv) : t.QueueInv := by
  obtain rfl | rfl := whenReleased_next ht
  · exact h
  · exact hf

theorem whenSelected {n : Nat} {f : State → State} (ht : s.whenSelected n f = .next t) (hf : (f s).QueueInv) :
    t.QueueInv := by
  obtain rfl | rfl := whenSelected_next ht
  · exact h.returnFiller n
  · exact hf

theorem exec {i : Instr} (ht : exec i s = .next t) : t.QueueInv := by
  cases i with
  | writeTransaction b => exact h.whenSelected (f := fun s => s.endWrite b) ht (h.endWrite b)
  | readTransaction n => exact h.whenSelected (f := fun s => s.endRead n) ht (h.endRead n)
  | idleTransaction n => exact h.whenSelected (f := fun s => s.endIdle n) ht (h.endIdle n)
  | directionByte b => exact h.whenSelected (f := fun s => s.takeDirection b) ht (h.takeDirection b)
  | unknownType => exact h.whenReleased ht h.rejectUnknown
  | configure => exact h.command .configure ht
  | start => exact h.command .start ht
  | stop => exact h.command .stop ht
  | abort => exact h.command .abort ht
  | reset => exact h.command .reset ht
  | quiet => exact h.command .quiet ht
  | resume => exact h.command .resume ht
  | status => exact h.command .status ht
  | admitStation => exact h.command .admitStation ht
  | release => exact h.command .release ht
  | setWeight => exact h.command .setWeight ht
  | hold => exact h.command .hold ht
  | enqueue => exact h.command .enqueue ht
  | flush => exact h.command .flush ht
  | setCohort => exact h.command .setCohort ht
  | query => exact h.command .query ht
  | txOutcome =>
    unfold Machine.exec execTxOutcome at ht
    refine h.whenReleased ht (h.deliver fun r f u hr hu => ?_)
    cases r <;> cases hr
    exact hu.takeOutcome _
  | mediumReport =>
    unfold Machine.exec execMediumReport at ht
    refine h.whenReleased ht (h.deliver fun r f u hr hu => ?_)
    cases r <;> cases hr
    exact hu.takeReport _
  | mediumAlert =>
    unfold Machine.exec execMediumAlert at ht
    refine h.whenReleased ht (h.deliver fun r f u hr hu => ?_)
    cases r <;> cases hr
    exact hu.takeAlert _
  | mediumClear =>
    unfold Machine.exec execMediumClear at ht
    refine h.whenReleased ht (h.deliver fun r f u hr hu => ?_)
    cases r <;> cases hr
    exact hu.takeClear
  | doze =>
    unfold Machine.exec execDoze at ht
    refine h.whenReleased ht (h.deliver fun r f u hr hu => ?_)
    cases r <;> cases hr
    exact hu.takeDoze _
  | wake =>
    unfold Machine.exec execWake at ht
    refine h.whenReleased ht (h.deliver fun r f u hr hu => ?_)
    cases r <;> cases hr
    exact hu.takeWake _
  | poll =>
    unfold Machine.exec execPoll at ht
    refine h.whenReleased ht (h.deliver fun r f u hr hu => ?_)
    cases r <;> cases hr
    exact hu.takePoll _
  | frameExpiry => exact h.whenReleased ht h.takeExpiry
  | orderTimeout => exact h.whenReleased ht h.takeTimeout
  | blankingExpiry => exact h.whenReleased ht h.expireBlanking
  | roundBoundary => exact h.whenReleased ht h.takeRoundBoundary
  | promptBoundary => exact h.whenReleased ht h.takePromptBoundary
  | orderBuild => exact h.whenReleased ht h.buildOrder
  | pinReset =>
    cases ht
    exact (pinResetValues_queueInv true).of_sameCli (by simp) (pinResetValues_queueInv true).rli
  | resetNRelease =>
    cases ht
    exact h.of_sameCli (by simp) h.rli
  | tokenReturn => exact h.whenReleased ht h.formTokenReturn
  | alert => exact h.whenReleased ht h.formAlert
  | attnPulse => exact h.whenReleased ht h.endPulse
  | recordStart cut => exact h.whenReleased (f := fun s => s.startRecord cut) ht (h.startRecord cut)
  | recordEnd framed => exact h.whenReleased (f := fun s => s.endRecord framed true) ht (h.endRecord framed true)
  | radioRecordSent => exact h.whenReleased ht h.finishSending
  | radioRecordBegin r => exact h.whenReleased (f := fun s => s.beginSending r) ht (h.beginSending r)
  | cancelAll => exact h.whenReleased ht (h.of_sameCli (by simp) h.rli.giveCancel)
  | linkNoteHanded =>
    exact h.whenReleased (f := fun s => s.giveNotes 1) ht (h.of_sameCli (by simp) (h.rli.giveNotes 1))
  | txOrderPlaced =>
    exact h.whenReleased (f := fun s => s.giveOrders 1) ht (h.of_sameCli (by simp) (h.rli.giveOrders 1))

end State.QueueInv

/-- Settles O59: the capacities of each link, which every row of the table and the passing of time keep. -/
theorem stepKeepsTheQueues : Obligations.StepKeepsTheQueues := by
  unfold Obligations.StepKeepsTheQueues
  intro s t h hs
  unfold step at hs
  split at hs
  · rename_i rest _
    have hnext : { s with pending := rest }.QueueInv := h.of_sameCli (by simp) h.rli
    exact hnext.exec hs
  · split at hs
    · exact h.exec hs
    · injection hs with hs
      subst hs
      exact h.of_sameCli (by simp [State.tick]) h.rli

end Sys2Proof.Machine
end

section
/-!
The transactions of the Control Link (R173 to R175, R187, R190): what each event makes of the transaction it finds.
-/
namespace Sys2Proof.Machine

/-! ## DIRECTION_BYTE -/

/-- What the direction byte decides, in the words of R173 to R175. -/
theorem transactionFor_eq (s : State) (b : Byte) : s.transactionFor b =
    if b = 0xC3#8 then .write (decide (s.cli.inbound.length < 8))
    else if b = 0x3C#8 then .read s.cli.outbound.head?
    else .idle := rfl

theorem takeDirection_of_none {s : State} (h : s.cli.transaction = none) (b : Byte) :
    s.takeDirection b = { s with cli := { s.cli with sdo := [0xFF#8], transaction := some (s.transactionFor b) } } := by
  unfold State.takeDirection
  rw [h]
  rfl

theorem takeDirection_of_some {s : State} (h : s.cli.transaction ≠ none) (b : Byte) : s.takeDirection b = s := by
  unfold State.takeDirection
  split
  · rfl
  · exact absurd ‹_› h

/-- Settles O3, by whether a transaction is in progress. -/
theorem directionByteDecidesTheTransaction : Obligations.DirectionByteDecidesTheTransaction := by
  unfold Obligations.DirectionByteDecidesTheTransaction
  intro s b h
  have hx : exec (.directionByte b) s = .next (s.takeDirection b) :=
    whenSelected_of_released 0 (fun s => s.takeDirection b) h
  rw [hx]
  refine ⟨fun hn => ?_, fun hs => ?_⟩
  · rw [takeDirection_of_none hn, transactionFor_eq]
  · rw [takeDirection_of_some hs]

/-! ## WRITE_TRANSACTION -/

/-- Fewer than four bytes hold no complete header (R174). -/
theorem receive_of_no_header (c : Cli) {bytes : List Byte} (h : bytes.length < 4) :
    c.receive bytes = { c with clShortRecords := min (c.clShortRecords + 1) 4294967295 } := by
  have hnone : receivedRecord bytes = none := by
    unfold receivedRecord
    split
    · simp only [List.length_cons] at h
      omega
    · rfl
  unfold Cli.receive
  rw [hnone]
  rfl

/-- A declared body above 512 bytes and one that was cut off are marked short (R174). -/
theorem receive_of_header (c : Cli) (typ tag l0 l1 : Byte) (rest : List Byte) :
    c.receive (typ :: tag :: l0 :: l1 :: rest) = { c with inbound := c.inbound ++
      [if 512 < l0.toNat + 256 * l1.toNat then { typ, tag, body := rest.take 512, short := true }
       else
        { typ, tag, body := rest.take (l0.toNat + 256 * l1.toNat)
          short := decide (rest.length < l0.toNat + 256 * l1.toNat) }] } := by
  have hlen : leNat [l0, l1] = l0.toNat + 256 * l1.toNat := by simp [leNat]
  unfold Cli.receive receivedRecord
  dsimp only
  rw [hlen]
  by_cases hlong : 512 < l0.toNat + 256 * l1.toNat
  · simp only [if_pos hlong]
  · simp only [if_neg hlong]

theorem endWrite_of_write {s : State} {ready : Bool} (h : s.cli.transaction = some (.write ready)) (bytes : List Byte) :
    s.endWrite bytes = { s with cli := { (if ready then s.cli.receive bytes else s.cli) with
      transaction := none
      sdo := 0xFF#8 :: (writeAnswer ready :: List.replicate bytes.length 0xFF#8).take bytes.length } } := by
  unfold State.endWrite
  rw [h]
  rfl

theorem endWrite_of_none {s : State} (h : s.cli.transaction = none) (bytes : List Byte) :
    s.endWrite bytes = s.returnFiller bytes.length := by
  unfold State.endWrite
  rw [h]

theorem endWrite_of_other {s : State} (h : s.cli.transaction ≠ none)
    (hw : ∀ ready, s.cli.transaction ≠ some (.write ready)) (bytes : List Byte) : s.endWrite bytes = s := by
  unfold State.endWrite
  split
  · exact absurd ‹_› (hw _)
  · exact absurd ‹_› h
  · rfl

/-- Settles O4, by the transaction that the WRITE ends. -/
theorem writeTransactionReceivesARecord : Obligations.WriteTransactionReceivesARecord := by
  unfold Obligations.WriteTransactionReceivesARecord
  intro s bytes h
  have hx : exec (.writeTransaction bytes) s = .next (s.endWrite bytes) :=
    whenSelected_of_released bytes.length (fun s => s.endWrite bytes) h
  rw [hx]
  refine ⟨fun ht => ?_, fun ht hshort => ?_, fun typ tag l0 l1 rest ht hb => ?_, fun ht => ?_, fun ht hw => ?_⟩
  · rw [endWrite_of_write ht]
    rfl
  · rw [endWrite_of_write ht, if_pos rfl, receive_of_no_header _ hshort]
    rfl
  · rw [endWrite_of_write ht, if_pos rfl, hb, receive_of_header]
    rfl
  · rw [endWrite_of_none ht, returnFiller_eq]
  · rw [endWrite_of_other ht hw]

/-! ## READ_TRANSACTION -/

/-- The record fixed for the READ leaves the queue only when all of it was clocked out (R175). -/
theorem endRead_of_record {s : State} {r : OutRecord} (h : s.cli.transaction = some (.read (some r))) (n : Nat) :
    s.endRead n = { s with cli := { s.cli with
      transaction := none
      sdo := 0xFF#8 :: (r.bytes ++ List.replicate n 0xFF#8).take n
      outbound := if r.bytes.length ≤ n then s.cli.outbound.drop 1 else s.cli.outbound } } := by
  unfold State.endRead
  rw [h]
  by_cases hall : r.bytes.length ≤ n <;> simp [State.updCli, readBytes, driven, hall]

theorem endRead_of_marker {s : State} (h : s.cli.transaction = some (.read none)) (n : Nat) :
    s.endRead n = { s with cli := { s.cli with
      transaction := none
      sdo := 0xFF#8 :: ([0#8, 0#8, 0#8, 0#8] ++ List.replicate n 0xFF#8).take n } } := by
  have hmarker : readBytes none = [0#8, 0#8, 0#8, 0#8] := by decide
  unfold State.endRead
  rw [h]
  dsimp only
  rw [hmarker]
  rfl

theorem endRead_of_none {s : State} (h : s.cli.transaction = none) (n : Nat) : s.endRead n = s.returnFiller n := by
  unfold State.endRead
  rw [h]

theorem endRead_of_other {s : State} (h : s.cli.transaction ≠ none) (hr : ∀ r, s.cli.transaction ≠ some (.read r))
    (n : Nat) : s.endRead n = s := by
  unfold State.endRead
  split
  · exact absurd ‹_› (hr _)
  · exact absurd ‹_› h
  · rfl

/-! ## IDLE_TRANSACTION -/

theorem endIdle_of_idle {s : State} (h : s.cli.transaction = some .idle) (n : Nat) :
    s.endIdle n = { s with cli := { s.cli with
      transaction := none
      sdo := 0xFF#8 :: List.replicate n 0xFF#8
      clBadDirection := min (s.cli.clBadDirection + 1) 4294967295 } } := by
  unfold State.endIdle
  rw [h]
  simp only [State.updCli, driven, List.nil_append, List.take_replicate, Nat.min_self, satAdd]

theorem endIdle_of_none {s : State} (h : s.cli.transaction = none) (n : Nat) : s.endIdle n = s.returnFiller n := by
  unfold State.endIdle
  rw [h]

theorem endIdle_of_other {s : State} (h : s.cli.transaction ≠ none) (hi : s.cli.transaction ≠ some .idle) (n : Nat) :
    s.endIdle n = s := by
  unfold State.endIdle
  split
  · exact absurd ‹_› hi
  · exact absurd ‹_› h
  · rfl

/-- Settles O5, by the transaction that the event finds in progress. -/
theorem readAndIdleTransactionsEnd : Obligations.ReadAndIdleTransactionsEnd := by
  unfold Obligations.ReadAndIdleTransactionsEnd
  intro s n h
  have hread : exec (.readTransaction n) s = .next (s.endRead n) :=
    whenSelected_of_released n (fun s => s.endRead n) h
  have hidle : exec (.idleTransaction n) s = .next (s.endIdle n) :=
    whenSelected_of_released n (fun s => s.endIdle n) h
  rw [hread, hidle]
  refine ⟨fun r ht => ?_, fun ht => ?_, fun ht hr => ?_, fun ht => ?_, fun ht hi => ?_, fun ht => ⟨?_, ?_⟩⟩
  · rw [endRead_of_record ht]
  · rw [endRead_of_marker ht]
  · rw [endRead_of_other ht hr]
  · rw [endIdle_of_idle ht]
  · rw [endIdle_of_other ht hi]
  · rw [endRead_of_none ht, returnFiller_eq]
  · rw [endIdle_of_none ht, returnFiller_eq]

end Sys2Proof.Machine
end

section
/-! The dispatch of the command at the head of the control inbound queue (R177), and CL_ATTN (R179). -/
namespace Sys2Proof.Machine

/-! ## The rows of dispatch -/

theorem exec_dispatchEvent_of_unknown {s : State} {typ : Byte} (h : s.resetN = false) (hn : commandOf typ = none) :
    exec (dispatchEvent typ) s = .next s.rejectUnknown := by
  have hrow : dispatchEvent typ = .unknownType := by simp [dispatchEvent, hn]
  rw [hrow]
  exact whenReleased_of_released State.rejectUnknown h

theorem exec_dispatchEvent_of_command {s : State} {typ : Byte} {c : Command} (h : s.resetN = false)
    (hn : commandOf typ = some c) :
    exec (dispatchEvent typ) s = .next (if c = .configure then (s.dispatch c c.decision).reformAttn s.mod.attnOperation
      else s.dispatch c c.decision) := by
  rw [dispatchEvent_of_command hn, exec_command c h]

/-! ## The CLI's own checks -/

theorem rejectUnknown_of_head {s : State} {r : HostRecord} {rest : List HostRecord} (hc : s.sel.choice = none)
    (hi : s.cli.inbound = r :: rest) (ho : s.cli.outbound.length < 16) (hn : commandOf r.typ = none) :
    s.rejectUnknown = (s.taken rest).pushOut (.reject r.tag) := by
  unfold State.rejectUnknown
  rw [dispatchable_of_cons hi ho (by simp [namesNone, hn])]
  simp [settle_of_no_choice hc, State.popInbound, State.updCli, hi, State.taken]

/-- A record that fails the CLI's checks is answered BAD_LENGTH ahead of its owner (R177). -/
theorem dispatch_of_bad_length {s : State} {c : Command} {r : HostRecord} {rest : List HostRecord}
    (d : State → List Byte → State × Reply) (hc : s.sel.choice = none) (hi : s.cli.inbound = r :: rest)
    (ho : s.cli.outbound.length < 16) (hn : commandOf r.typ = some c)
    (hbad : r.short = true ∨ bodyLengthOk c r.body = false) :
    s.dispatch c d = { s with cli := s.answered r rest (.code .badLength) } := by
  have hlen : r.lengthOk c = false := by
    rcases hbad with hs | hb
    · simp [HostRecord.lengthOk, hs]
    · simp [HostRecord.lengthOk, hb]
  have hpop : s.settle.popInbound = s.taken rest := by
    simp [settle_of_no_choice hc, State.popInbound, State.updCli, hi, State.taken]
  unfold State.dispatch
  rw [dispatchable_of_cons hi ho (by simp [names, hn])]
  dsimp only
  rw [hlen, hpop, if_neg Bool.false_ne_true]
  exact pushOut_answered rfl rfl rfl _

/-- Settles O6: the REJECT, and the BAD_LENGTH, which leaves the ATTN operation as it was. -/
theorem cliChecksComeFirst : Obligations.CliChecksComeFirst := by
  unfold Obligations.CliChecksComeFirst
  intro s r rest h hc hi ho
  refine ⟨fun hn => ?_, fun c hn hbad => ?_⟩
  · have hrow : exec .unknownType s = .next s.rejectUnknown := whenReleased_of_released State.rejectUnknown h
    rw [hrow, rejectUnknown_of_head hc hi ho hn, pushOut_eq]
    rfl
  · rw [exec_dispatchEvent_of_command h hn, dispatch_of_bad_length _ hc hi ho hn hbad]
    have hsame := reformAttn_same { s with cli := s.answered r rest (.code .badLength) }
    dsimp only at hsame
    rw [hsame, ite_self]

/-! ## One reply for every command -/

/-- A change of the ATTN operation touches the pulses alone (R179). -/
@[simp] theorem reformAttn_queues (s : State) (b : Option AttnMode) :
    (s.reformAttn b).cli.inbound = s.cli.inbound ∧ (s.reformAttn b).cli.transaction = s.cli.transaction
      ∧ (s.reformAttn b).cli.sdo = s.cli.sdo := by
  unfold State.reformAttn
  split <;> simp

/-- The row of a command: a CONFIGURE forms the ATTN operation anew behind its reply. -/
theorem afterDispatch_queues (c : Command) (s : State) (b : Option AttnMode) :
    ∃ t : State, (if c = .configure then s.reformAttn b else s) = t ∧ t.cli.inbound = s.cli.inbound
      ∧ t.cli.outbound = s.cli.outbound ∧ t.cli.transaction = s.cli.transaction ∧ t.cli.sdo = s.cli.sdo := by
  refine ⟨_, rfl, ?_⟩
  split <;> simp

theorem dispatchEvent_waits {s : State} {typ : Byte} (h : s.resetN = false)
    (hwait : ∀ r rest, s.cli.inbound = r :: rest →
      16 ≤ s.cli.outbound.length ∨ dispatchEvent r.typ ≠ dispatchEvent typ) :
    exec (dispatchEvent typ) s = .next s := by
  have hnone (wanted : Byte → Bool) (hw : ∀ x, wanted x = true → dispatchEvent x = dispatchEvent typ) :
      s.dispatchable wanted = none :=
    dispatchable_eq_none fun r rest hi hr => (hwait r rest hi).resolve_right (not_not_intro (hw r.typ hr))
  cases hn : commandOf typ with
  | none =>
    have hd : s.dispatchable namesNone = none := hnone _ fun x hx => by
      rw [namesNone, Option.isNone_iff_eq_none] at hx
      simp [dispatchEvent, hx, hn]
    rw [exec_dispatchEvent_of_unknown h hn]
    unfold State.rejectUnknown
    rw [hd]
  | some c =>
    have hd : s.dispatchable (names c) = none := hnone _ fun x hx => by
      rw [names, beq_iff_eq] at hx
      rw [dispatchEvent_of_command hx, dispatchEvent_of_command hn]
    rw [exec_dispatchEvent_of_command h hn, dispatch_of_not_dispatchable hd, reformAttn_same, ite_self]

/-- Settles O7: the reply behind the owner's decision, and the row that finds no command of its own to dispatch. -/
theorem everyCommandIsAnsweredOnce : Obligations.EveryCommandIsAnsweredOnce := by
  unfold Obligations.EveryCommandIsAnsweredOnce
  refine ⟨fun s r rest c h hi ho hn => ?_, fun s typ h hwait => dispatchEvent_waits h hwait⟩
  have hr : s.dispatchable (names c) = some r := dispatchable_of_cons hi ho (by simp [names, hn])
  obtain ⟨u, reply, hd, hu⟩ := dispatch_of_dispatchable hr
  obtain ⟨t, ht, hin, hout, htr, hsdo⟩ :=
    afterDispatch_queues c (u.pushOut (.reply r.typ r.tag reply)) s.mod.attnOperation
  rw [pushOut_cli] at hin hout htr hsdo
  refine ⟨t, reply, ?_, ?_, ?_, ?_, ?_⟩
  · rw [exec_dispatchEvent_of_command h hn, hd, ht]
  · rw [hin, pushed_inbound, hu.inbound, hi]
    rfl
  · rw [hout, pushed_outbound, hu.outbound]
  · rw [htr, pushed_transaction, hu.transaction]
  · rw [hsdo, pushed_sdo, hu.sdo]

/-! ## CL_ATTN -/

theorem exec_attnPulse {s : State} (h : s.resetN = false) : exec .attnPulse s = .next s.endPulse :=
  whenReleased_of_released State.endPulse h

theorem pulseEnded_of_pulse {s : State} {b : Time} (hb : s.cli.pulse = some b) :
    s.pulseEnded = passed s.rck.deviceTime (b + 2) := by
  unfold State.pulseEnded
  rw [hb]
  rfl

theorem endPulse_of_ended {s : State} (h : s.pulseEnded = true) : s.endPulse = { s with cli := { s.cli with
    backlog := s.cli.backlog - 1
    pulse := if 1 < s.cli.backlog then some s.rck.deviceTime else none } } := by
  unfold State.endPulse
  rw [if_pos h]
  rfl

theorem endPulse_of_not_ended {s : State} (h : s.pulseEnded = false) : s.endPulse = s := by
  unfold State.endPulse
  rw [if_neg (by simp [h])]

theorem attnOperation_of_valid {m : Mod} (h : m.configValid = true) : m.attnOperation = some m.config.attnMode := by
  simp [Mod.attnOperation, h]

/-- While the configuration record is invalid CL_ATTN is idle (R179). -/
theorem attnLevel_of_invalid {s : State} (h : s.mod.configValid = false) :
    s.attnLevel = s.mod.config.attnActive.opposite := by
  have hop : s.mod.attnOperation = none := by simp [Mod.attnOperation, h]
  unfold State.attnLevel State.attnActive
  rw [hop]
  rfl

/-- In LEVEL operation CL_ATTN follows the outbound queue (R179). -/
theorem attnLevel_of_level {s : State} (hv : s.mod.configValid = true) (hm : s.mod.config.attnMode = .level) :
    s.attnLevel = if s.cli.outbound = [] then s.mod.config.attnActive.opposite else s.mod.config.attnActive := by
  unfold State.attnLevel State.attnActive
  rw [attnOperation_of_valid hv, hm]
  cases hout : s.cli.outbound with
  | nil => simp
  | cons x xs => simp

/-- In PULSE operation CL_ATTN is active in the microsecond in which a pulse begins (R179). -/
theorem attnLevel_of_pulse {s : State} (hv : s.mod.configValid = true) (hm : s.mod.config.attnMode = .pulse) :
    s.attnLevel = if s.cli.pulse = some s.rck.deviceTime then s.mod.config.attnActive
      else s.mod.config.attnActive.opposite := by
  unfold State.attnLevel State.attnActive
  rw [attnOperation_of_valid hv, hm]
  cases hp : s.cli.pulse with
  | none => simp
  | some b => by_cases hb : b = s.rck.deviceTime <;> simp [hb, Ne.symm]

/-- Settles O31: the end of a pulse, and CL_ATTN operation by operation. -/
theorem attnFollowsItsMode : Obligations.AttnFollowsItsMode := by
  unfold Obligations.AttnFollowsItsMode
  intro s
  refine ⟨fun b h hb hpassed => ?_, fun h hrunning => ?_, attnLevel_of_invalid, attnLevel_of_level, attnLevel_of_pulse⟩
  · rw [exec_attnPulse h, endPulse_of_ended ((pulseEnded_of_pulse hb).trans hpassed)]
  · have hnot : s.pulseEnded = false := by
      cases hp : s.cli.pulse with
      | none => simp [State.pulseEnded, hp]
      | some b => rw [pulseEnded_of_pulse hp, hrunning b hp]
    rw [exec_attnPulse h, endPulse_of_not_ended hnot]

end Sys2Proof.Machine
end

section
/-! The Radio Link (R182, R184, R185, R190): the records that arrive, and the records that are sent. -/
namespace Sys2Proof.Machine

/-! ## Well-formed records (R185) -/

/-- The type codes of the MAC's records, each with the length of its body (R191, R194). -/
def macBodies : List (Byte × Nat) :=
  [(0x60#8, 10), (0x61#8, 2), (0x62#8, 1), (0x63#8, 0), (0x64#8, 2), (0x65#8, 2), (0x66#8, 2)]

theorem mem_macBodies_of_code {typ : Byte} {body : List Byte} {code length : Nat} (ht : typ.toNat = code)
    (hl : body.length = length) (hm : (BitVec.ofNat 8 code, length) ∈ macBodies) : (typ, body.length) ∈ macBodies := by
  rw [← ht, BitVec.ofNat_toNat, BitVec.setWidth_eq, ← hl] at hm
  exact hm

/-- A body is read exactly where its length is the one that its type fixes. -/
theorem parseMacBody_ne_none_iff (typ : Byte) (body : List Byte) :
    parseMacBody typ body ≠ none ↔ (typ, body.length) ∈ macBodies := by
  constructor
  · intro h
    unfold parseMacBody at h
    split at h
    case h_8 => exact absurd rfl h
    all_goals exact mem_macBodies_of_code ‹_› ‹_› (by decide)
  · intro hm
    simp only [macBodies, List.mem_cons, Prod.mk.injEq, List.not_mem_nil, or_false] at hm
    rcases hm with ⟨rfl, hl⟩ | ⟨rfl, hl⟩ | ⟨rfl, hl⟩ | ⟨rfl, hl⟩ | ⟨rfl, hl⟩ | ⟨rfl, hl⟩ | ⟨rfl, hl⟩
    all_goals simp [parseMacBody, hl]

theorem parseMacRecord_ne_none_iff (bytes : List Byte) :
    parseMacRecord bytes ≠ none ↔ ∃ typ tag l0 l1 body, bytes = typ :: tag :: l0 :: l1 :: body
      ∧ body.length = l0.toNat + 256 * l1.toNat ∧ (typ, body.length) ∈ macBodies := by
  have hlen (l0 l1 : Byte) : leNat [l0, l1] = l0.toNat + 256 * l1.toNat := by simp [leNat]
  constructor
  · intro h
    unfold parseMacRecord at h
    split at h
    · rename_i typ tag l0 l1 body
      split at h
      · rename_i hb
        exact ⟨typ, tag, l0, l1, body, rfl, hb.trans (hlen l0 l1), (parseMacBody_ne_none_iff typ body).mp h⟩
      · exact absurd rfl h
    · exact absurd rfl h
  · rintro ⟨typ, tag, l0, l1, body, rfl, hb, hm⟩
    unfold parseMacRecord
    dsimp only
    rw [if_pos (hb.trans (hlen l0 l1).symm)]
    exact (parseMacBody_ne_none_iff typ body).mpr hm

/-! ## The end of a record -/

theorem endRecord_of_idle {s : State} (h : s.rli.arrival = .idle) (framed : List Byte) (closed : Bool) :
    s.endRecord framed closed = s := by
  unfold State.endRecord
  rw [h]

theorem endRecord_of_discarding {s : State} (h : s.rli.arrival = .discarding) (framed : List Byte) (closed : Bool) :
    s.endRecord framed closed = { s with rli := { s.rli with arrival := .idle } } := by
  unfold State.endRecord
  rw [h]
  rfl

/-- A malformed record gives its place up and is counted (R185). -/
theorem endRecord_of_malformed {s : State} (h : s.rli.arrival = .claimed) {framed : List Byte} {closed : Bool}
    (hm : arrivedRecord framed closed = none) :
    s.endRecord framed closed = { s with rli := { s.rli with
      arrival := .idle, rlMalformed := min (s.rli.rlMalformed + 1) 4294967295 } } := by
  unfold State.endRecord
  rw [h]
  simp only [State.updRli, Rli.takeRecord, hm]
  rfl

/-- A well-formed record waits for delivery in its place (R185, R186). -/
theorem endRecord_of_wellFormed {s : State} (h : s.rli.arrival = .claimed) {framed : List Byte} {closed : Bool}
    {m : MacRecord} (hm : arrivedRecord framed closed = some m) :
    s.endRecord framed closed = { s with rli := { s.rli with arrival := .idle, inbound := s.rli.inbound ++ [m] } } := by
  unfold State.endRecord
  rw [h]
  simp only [State.updRli, Rli.takeRecord, hm]

/-! ## The start of a record -/

/-- What a start-of-record symbol makes of a part in which no record is in progress: a claim, or a discard (R184). -/
def State.claimPlace (s : State) : State :=
  if s.rli.inbound.length < 16 then { s with rli := { s.rli with arrival := .claimed } }
  else { s with rli := { s.rli with
    arrival := .discarding, rlOverrun := min (s.rli.rlOverrun + 1) 4294967295 } }

/-- Behind the end of a record no place is claimed but those of the queue. -/
theorem partRdy_of_idle {s : State} (h : s.resetN = false) (ha : s.rli.arrival = .idle) :
    s.partRdy = decide (s.rli.inbound.length < 16) := by
  simp [State.partRdy, State.claimedPlaces, h, ha]

theorem startRecord_eq {s u : State} {cut : List Byte} (hu : s.endRecord cut false = u) (h : u.resetN = false)
    (ha : u.rli.arrival = .idle) : s.startRecord cut = u.claimPlace := by
  unfold State.startRecord State.claimPlace
  dsimp only
  rw [hu, partRdy_of_idle h ha]
  by_cases hp : u.rli.inbound.length < 16
  · simp [hp, State.updRli]
  · simp [hp, State.updRli, satAdd]

theorem claimPlace_of_free {s : State} (h : s.rli.inbound.length < 16) :
    s.claimPlace = { s with rli := { s.rli with arrival := .claimed } } :=
  if_pos h

theorem claimPlace_of_full {s : State} (h : 16 ≤ s.rli.inbound.length) :
    s.claimPlace = { s with rli := { s.rli with
      arrival := .discarding, rlOverrun := min (s.rli.rlOverrun + 1) 4294967295 } } :=
  if_neg (by omega)

/-- Settles O32: the end of the record in progress, and the new record's place behind it. -/
theorem radioRecordsArrive : Obligations.RadioRecordsArrive := by
  unfold Obligations.RadioRecordsArrive
  intro s bytes h
  have hend : exec (.recordEnd bytes) s = .next (s.endRecord bytes true) :=
    whenReleased_of_released (fun s => s.endRecord bytes true) h
  have hstart : exec (.recordStart bytes) s = .next (s.startRecord bytes) :=
    whenReleased_of_released (fun s => s.startRecord bytes) h
  have hidle (ha : s.rli.arrival = .idle) := startRecord_eq (endRecord_of_idle ha bytes false) h ha
  have hcut (ha : s.rli.arrival = .claimed) :=
    startRecord_eq (endRecord_of_malformed ha (framed := bytes) (closed := false) rfl) h rfl
  have hdiscarded (ha : s.rli.arrival = .discarding) := startRecord_eq (endRecord_of_discarding ha bytes false) h rfl
  rw [hend, hstart]
  refine ⟨fun ha => ?_, fun ha => ?_, fun ha hm => ?_, fun m ha hm => ?_, parseMacRecord_ne_none_iff bytes,
    fun ha hp => ?_, fun ha hp => ?_, fun ha hp => ?_, fun ha hp => ?_, fun ha hp => ?_, fun ha hp => ?_⟩
  · rw [endRecord_of_idle ha]
  · rw [endRecord_of_discarding ha]
  · rw [endRecord_of_malformed (framed := bytes) (closed := true) ha hm]
  · rw [endRecord_of_wellFormed (framed := bytes) (closed := true) ha hm]
  · exact congrArg Host.Outcome.next ((hidle ha).trans (claimPlace_of_free hp))
  · exact congrArg Host.Outcome.next ((hidle ha).trans (claimPlace_of_full hp))
  · exact congrArg Host.Outcome.next ((hcut ha).trans (claimPlace_of_free hp))
  · exact congrArg Host.Outcome.next ((hcut ha).trans (claimPlace_of_full hp))
  · exact congrArg Host.Outcome.next ((hdiscarded ha).trans (claimPlace_of_free hp))
  · exact congrArg Host.Outcome.next ((hdiscarded ha).trans (claimPlace_of_full hp))

/-! ## Records for the MAC (R182) -/

theorem beginSending_of_ready {s : State} (hs : s.rli.sending = false) (ho : s.rli.outbound ≠ []) :
    s.beginSending true = { s with rli := { s.rli with sending := true, rlTx := [.startOfRecord] } } := by
  unfold State.beginSending
  rw [if_pos (by simp [hs, ho])]
  rfl

theorem beginSending_of_waiting {s : State} {macRdy : Bool}
    (h : macRdy = false ∨ s.rli.sending = true ∨ s.rli.outbound = []) : s.beginSending macRdy = s := by
  unfold State.beginSending
  rw [if_neg]
  rcases h with h | h | h <;> simp [h]

/-- The record begun leaves the queue whole, idle symbols behind it (R182, R190). -/
theorem finishSending_of_begun {s : State} {x : RadioRecord} {rest : List RadioRecord} (hs : s.rli.sending = true)
    (ho : s.rli.outbound = x :: rest) :
    s.finishSending = { s with rli := { s.rli with
      sending := false, outbound := rest
      rlTx := .startOfRecord :: (x.bytes.map .data ++ [.endOfRecord, .idle]) } } := by
  unfold State.finishSending
  rw [ho]
  dsimp only
  rw [if_pos hs]
  rfl

theorem finishSending_of_not_begun {s : State} (h : s.rli.sending = false ∨ s.rli.outbound = []) :
    s.finishSending = s := by
  unfold State.finishSending
  split
  · rfl
  · rename_i ho
    have hs : s.rli.sending = false := h.resolve_right (by simp [ho])
    rw [if_neg (by simp [hs])]

/-- Settles O33: the sampling of MAC_RDY, and the end of the record begun. -/
theorem radioRecordsAreSentWhole : Obligations.RadioRecordsAreSentWhole := by
  unfold Obligations.RadioRecordsAreSentWhole
  intro s h
  have hbegin (ready : Bool) : exec (.radioRecordBegin ready) s = .next (s.beginSending ready) :=
    whenReleased_of_released (fun s => s.beginSending ready) h
  have hsent : exec .radioRecordSent s = .next s.finishSending := whenReleased_of_released State.finishSending h
  simp only [hbegin, hsent]
  refine ⟨fun hs ho => ?_, ?_, fun ready hw => ?_, fun x rest hs ho => ?_, fun hn => ?_⟩
  · rw [beginSending_of_ready hs ho]
  · rw [beginSending_of_waiting (.inl rfl)]
  · rw [beginSending_of_waiting (.inr hw)]
  · rw [finishSending_of_begun hs ho]
  · rw [finishSending_of_not_begun hn]

end Sys2Proof.Machine
end

section
/-! The record formats (R188, R189, R191 to R194): the header, the bodies' lengths, and the worked encoding of order 37. -/
namespace Sys2Proof.Machine

/-! ## The header (R188) -/

theorem frameRecord_length (typ tag : Byte) (body : List Byte) :
    (frameRecord typ tag body).length = 4 + body.length := by
  simp only [frameRecord, List.length_cons, List.length_append, leBytes_length]
  omega

/-- Behind type and tag stand the two bytes of the body's length. -/
theorem frameRecord_lengthField (typ tag : Byte) (body : List Byte) :
    ((frameRecord typ tag body).drop 2).take 2 = leBytes 2 body.length :=
  List.take_left' (leBytes_length 2 body.length)

theorem leNat_frameRecord_lengthField (typ tag : Byte) {body : List Byte} (h : body.length ≤ 512) :
    leNat (((frameRecord typ tag body).drop 2).take 2) = body.length := by
  rw [frameRecord_lengthField, leNat_leBytes]
  exact Nat.mod_eq_of_lt (by omega)

/-! ## The bodies (R192 to R194) -/

theorem txOrder_bytes_length (o : TxOrder) : o.bytes.length = 8 + 6 * o.frames.length := by
  have frameLength (f : Word32 × Nat) : (leBytes 4 f.1.toNat ++ leBytes 2 f.2).length = 6 := by
    simp only [List.length_append, leBytes_length]
  simp only [TxOrder.bytes, List.length_append, leBytes_length, flatMap_length _ 6 frameLength]

theorem tokenReturnBytes_length (es : List (Word32 × FrameResult)) :
    (tokenReturnBytes es).length = 2 + 5 * es.length := by
  have entryLength (e : Word32 × FrameResult) : (leBytes 4 e.1.toNat ++ leBytes 1 e.2.code).length = 5 := by
    simp only [List.length_append, leBytes_length]
  simp only [tokenReturnBytes, List.length_append, leBytes_length, List.length_singleton,
    flatMap_length _ 5 entryLength]

theorem usageReport_bytes_length (u : UsageReport) : u.bytes.length = 38 + 5 * u.cohorts.length := by
  have cohortLength (p : Nat × Nat) : (leBytes 1 p.1 ++ leBytes 4 p.2).length = 5 := by
    simp only [List.length_append, leBytes_length]
  simp only [UsageReport.bytes, List.length_append, leBytes_length, List.length_cons, List.length_nil,
    flatMap_length _ 5 cohortLength]

theorem alertBytes_length (mode : Mode) (causes : QuietCauses) (c : Capture) :
    (alertBytes mode causes c).length = 16 := by
  simp only [alertBytes, List.length_append, leBytes_length, List.length_singleton]

theorem statusReply_bytes_length (b : StatusBody) : (Reply.status b).bytes.length = 18 := by
  simp only [Reply.bytes, StatusBody.bytes, List.length_append, leBytes_length, List.length_singleton]

/-! ## The worked encoding (R194) -/

/-- The order of the manual's example: station 120's bulk frames, as a fair order. -/
def workedOrder : TxOrder where
  id := 37
  kind := .fair
  station := 120
  lane := .bulk
  est := 332
  frames := [(0x1001, 1500), (0x1002, 1500), (0x1003, 600)]

/-- The outcome of that order: the first and the third of its frames were delivered. -/
def workedOutcome : Outcome where
  id := 37
  attempts := 2
  airtime := 300
  finalRate := 300
  frameCount := 3
  deliveredMap := 5

theorem workedOrder_bytes : workedOrder.bytes
    = [0x25, 0x03, 0x78, 0x00, 0x01, 0x03, 0x4C, 0x01,
        0x01, 0x10, 0x00, 0x00, 0xDC, 0x05, 0x02, 0x10, 0x00, 0x00, 0xDC, 0x05,
        0x03, 0x10, 0x00, 0x00, 0x58, 0x02] := by
  decide

theorem txOrder_workedOrder_bytes : (RadioRecord.txOrder workedOrder).bytes
    = [0x53, 0x00, 0x1A, 0x00] ++ workedOrder.bytes := by
  have headerLength : leBytes 2 workedOrder.bytes.length = [0x1A, 0x00] := by
    rw [txOrder_bytes_length]
    decide
  simp only [RadioRecord.bytes, frameRecord, headerLength]
  rfl

/-- A record whose header carries its body's length is read by its type alone (R185, R188). -/
theorem parseMacRecord_frameRecord (typ tag : Byte) {body : List Byte} (h : body.length ≤ 512) :
    parseMacRecord (frameRecord typ tag body) = parseMacBody typ body :=
  if_pos (leNat_frameRecord_lengthField typ tag h).symm

theorem parseMacBody_workedOutcome :
    parseMacBody 0x60 [0x25, 0x02, 0x2C, 0x01, 0x2C, 0x01, 0x03, 0x00, 0x05, 0x00]
      = some (.txOutcome workedOutcome) := by
  decide

/-- Settles O54: the fields, the header, the body of each type, and the worked encoding. -/
theorem recordsAreEncodedAsSpecified : Obligations.RecordsAreEncodedAsSpecified := by
  unfold Obligations.RecordsAreEncodedAsSpecified
  refine ⟨fun size n => ⟨leNat_leBytes size n, leBytes_length size n⟩,
    fun typ tag body h => ⟨frameRecord_length typ tag body, leNat_frameRecord_lengthField typ tag h⟩,
    txOrder_bytes_length, tokenReturnBytes_length, usageReport_bytes_length, alertBytes_length,
    statusReply_bytes_length, stationRow_length, cohortRow_length, outRow_length, activeRow_length, ?_, ?_⟩
  · exact txOrder_workedOrder_bytes.trans (congrArg _ workedOrder_bytes)
  · exact (parseMacRecord_frameRecord 0x60 0x00 (by decide)).trans parseMacBody_workedOutcome

end Sys2Proof.Machine
end
